-- ==== Sys2Proof/Word.lean ====
section
/-! DEFINITION. The two word types of the block: the 8-bit byte, the unit of every storage access and stream
(R30, R42), and the 16-bit value of `length`, `crc16`, `seed` and the CRC accumulator (R9, R14, R63). -/

namespace Sys2Proof

/-- A byte: an unsigned 8-bit value (R10). -/
abbrev Byte := BitVec 8

/-- A 16-bit unsigned value: `length`, `crc`, `seed`, `acc` (R9, R63). -/
abbrev Half := BitVec 16

end Sys2Proof
end

