-- ==== Sys2Proof/Config.lean ====
section
/-! DEFINITION. The constants of R7 and R8, hardwired (R28), and the one open parameter of the block,
the capacity of RXBUF (R9, D13). -/

namespace Sys2Proof.Config

/-- `SYNC`, first byte of every frame (R7). -/
abbrev sync : Byte := 0xFF
/-- `START1`, first start byte (R7). -/
abbrev start1 : Byte := 0x55
/-- `START2`, second start byte (R7). -/
abbrev start2 : Byte := 0xAA
/-- The preamble, or marker: the three bytes that open every frame (R54, R56). -/
abbrev preamble : List Byte := [sync, start1, start2]
/-- `IPC_MAX_PACKET_SIZE`: the largest legal payload length, inclusive (R7). -/
abbrev maxPayload : Nat := 1024
/-- `POLY`: the CRC16 polynomial (R7). -/
abbrev poly : Half := 0x1021
/-- `TX_SEED`: the seed the Frame Codec passes to the CRC16 unit (R7). -/
abbrev txSeed : Half := 0x0000
/-- `HEADER_LEN`: channel, cmd1, cmd2, cmd3, target_id, length (R7). -/
abbrev headerLen : Nat := 7
/-- `HDR_END`: offset of the first payload byte from the sync byte (R8). -/
abbrev hdrEnd : Nat := 10
/-- `MIN_FRAME`: the length of a frame with an empty payload; a frame has `MIN_FRAME + length` bytes (R8). -/
abbrev minFrame : Nat := 12
/-- `MAX_FRAME`: the length of the longest frame (R8). -/
abbrev maxFrame : Nat := 1036

/-- What `RX_CAP` exceeds its least legal value by. The spec leaves it open (R9, D13), so it has no value here:
a free value, assumption 5. -/
opaque rxCapExtra : Nat

/-- `RX_CAP`, the capacity of RXBUF in bytes: any value that is at least `MAX_FRAME` (R9, U10). -/
def rxCap : Nat := rxCapExtra + 1036

end Sys2Proof.Config
end

