-- ==== Sys2Proof/Syntax.lean ====
section
/-! DEFINITION. The operations of the block, one constructor per row of spec/opcode_table.json, and the form in
which an operation is presented to the block: an `OP` code with operand latches, an `RX_STATE` code, or bytes on
the line (R52, R54, R60). -/

namespace Sys2Proof

/-- The thirteen rows of spec/opcode_table.json: seven host commands with the operands of R53, five engine steps
(R60) and the wire frame (R54). -/
inductive Instr where
  /-- `CRC16.COMPUTE data, length, seed` (R63). -/
  | crc16Compute (data : List Byte) (length : Nat) (seed : Half)
  /-- `FRAME.ENCODE channel, cmd1, cmd2, cmd3, target_id, payload` (R71). -/
  | frameEncode (channel cmd1 cmd2 cmd3 targetId : Byte) (payload : List Byte)
  /-- `FRAME.DECODE buffer` (R84). -/
  | frameDecode (buffer : List Byte)
  /-- `SESSION.SEND channel, cmd1, cmd2, cmd3, target_id, payload` (R100). -/
  | sessionSend (channel cmd1 cmd2 cmd3 targetId : Byte) (payload : List Byte)
  /-- `RX.START` (R101). -/
  | rxStart
  /-- `SESSION.SHUTDOWN` (R102). -/
  | sessionShutdown
  /-- `SESSION.RESET` (R103). -/
  | sessionReset
  /-- `RX.READ` (R90); its oracle input, the device's answer, stands in the state. -/
  | rxRead
  /-- `RX.SCAN` (R91). -/
  | rxScan
  /-- `RX.DELIVER` (R92). -/
  | rxDeliver
  /-- `RX.WAIT` (R93). -/
  | rxWait
  /-- `RX.RESYNC` (R94). -/
  | rxResync
  /-- `FRAME`, the wire frame (R54); its `length` field is the length of the payload (R14). -/
  | frame (channel cmd1 cmd2 cmd3 targetId : Byte) (payload : List Byte) (crc : Half)
deriving DecidableEq, Repr

/-- The operand latches of the host command port (R15). A command reads the latches R53 lists for it. -/
structure Latches where
  channel : Byte := 0
  cmd1 : Byte := 0
  cmd2 : Byte := 0
  cmd3 : Byte := 0
  targetId : Byte := 0
  payload : List Byte := []
  data : List Byte := []
  length : Nat := 0
  seed : Half := 0
  buffer : List Byte := []
deriving DecidableEq, Repr

/-- What the host presents at the command port: the 4-bit code `OP[3:0]` together with the operands (R52). -/
structure Command where
  op : BitVec 4
  latches : Latches := {}
deriving DecidableEq, Repr

/-- How an operation is presented to the block: the three selectors of spec/opcode_table.json (R62). -/
inductive Encoded where
  /-- A host command, matched on `OP` (R52). -/
  | command (c : Command)
  /-- An engine step, matched on `RX_STATE[2:0]` (R60). -/
  | engine (code : BitVec 3)
  /-- Bytes on the line, the byte at offset 0 first (R54). -/
  | line (bytes : List Byte)
deriving DecidableEq, Repr

end Sys2Proof
end

