-- ==== Sys2Proof/Machine/Operands.lean ====
section
/-! DEFINITION. Operand forms: byte indexing, the assembly and splitting of the big-endian 16-bit fields, and the
layout of the bytes of one frame (R39, R54, R55). -/

namespace Sys2Proof.Machine

/-- `b[i]` (R11). Every rule checks lengths first, so the value past the end is never used. -/
def byteAt (b : List Byte) (i : Nat) : Byte := b.getD i 0

/-- `b[i .. i+n)` (R11). -/
def slice (b : List Byte) (i n : Nat) : List Byte := (b.drop i).take n

/-- Assembly of a 16-bit field from its high and low byte: `(hi << 8) | lo` (R39, R55). -/
def be16 (hi lo : Byte) : Half := (hi.setWidth 16 <<< 8) ||| lo.setWidth 16

/-- `(v >> 8) & 0xFF`, the byte of a 16-bit field that is sent first (R55). -/
def hiByte (v : Half) : Byte := (v >>> 8).setWidth 8

/-- `v & 0xFF`, the byte of a 16-bit field that is sent second (R55). -/
def loByte (v : Half) : Byte := v.setWidth 8

/-- The 16-bit field that starts at index `i` (R55). -/
def halfAt (b : List Byte) (i : Nat) : Half := be16 (byteAt b i) (byteAt b (i + 1))

/-- Header followed by payload, `7 + length` bytes: the range the CRC covers (R54, R71; 90_conflicts C1). -/
def frameBody (channel cmd1 cmd2 cmd3 targetId : Byte) (payload : List Byte) : List Byte :=
  let n : Half := BitVec.ofNat 16 payload.length
  [channel, cmd1, cmd2, cmd3, targetId, hiByte n, loByte n] ++ payload

/-- All the bytes of a frame in offset order: preamble, body, CRC high byte first (R54). -/
def frameBytes (channel cmd1 cmd2 cmd3 targetId : Byte) (payload : List Byte) (crc : Half) : List Byte :=
  Config.preamble ++ frameBody channel cmd1 cmd2 cmd3 targetId payload ++ [hiByte crc, loByte crc]

end Sys2Proof.Machine
end

