-- ==== Sys2Proof/Machine/Crc16.lean ====
section
/-! DEFINITION. The algorithm of the CRC16 Checksum Unit, bit at a time (R63 to R65, R70). The accumulator is
working state of one operation only (R17). -/

namespace Sys2Proof.Machine

/-- One shift-and-conditional-XOR step; the test is on bit 15 before the shift (R64). -/
def crcBit (acc : Half) : Half :=
  if acc.getLsbD 15 then (acc <<< 1) ^^^ Config.poly else acc <<< 1

/-- The processing of one data byte: XOR into bits 15..8, then eight steps of `crcBit` (R65). -/
def crcByte (acc : Half) (b : Byte) : Half :=
  Nat.repeat crcBit 8 (acc ^^^ (b.setWidth 16 <<< 8))

/-- The accumulator after the first `n` bytes of `d`, starting from `seed` (R63): the `crc` of a successful
`CRC16.COMPUTE d, n, seed`. -/
def crc16 (d : List Byte) (n : Nat) (seed : Half) : Half :=
  (d.take n).foldl crcByte seed

/-- The CRC of a frame body, header and payload, with seed 0 (R71, R82). -/
def bodyCrc (body : List Byte) : Half := crc16 body body.length Config.txSeed

end Sys2Proof.Machine
end

