-- ==== Sys2Proof/WellFormed.lean ====
section
/-! DEFINITION. Which instructions are well formed. The operands of the host commands have no illegal value (R53:
over-long payloads and lengths can be expressed, so that they can be rejected); a wire frame declares at most 1024
payload bytes and carries the CRC of its body (R56). -/

namespace Sys2Proof

/-- The length check of the wire frame: `0 <= length <= 1024` (R56). -/
def frameLengthOk (payload : List Byte) : Bool := payload.length ≤ Config.maxPayload

/-- The checksum check of the wire frame: `crc16` equals the CRC16 of the body with seed 0 (R56). -/
def frameCrcOk (channel cmd1 cmd2 cmd3 targetId : Byte) (payload : List Byte) (crc : Half) : Bool :=
  crc == Machine.bodyCrc (Machine.frameBody channel cmd1 cmd2 cmd3 targetId payload)

/-- Well-formedness of an instruction. -/
def WellFormed : Instr → Bool
  | .crc16Compute _ _ _ => true
  | .frameEncode _ _ _ _ _ _ => true
  | .frameDecode _ => true
  | .sessionSend _ _ _ _ _ _ => true
  | .rxStart => true
  | .sessionShutdown => true
  | .sessionReset => true
  | .rxRead => true
  | .rxScan => true
  | .rxDeliver => true
  | .rxWait => true
  | .rxResync => true
  | .frame channel cmd1 cmd2 cmd3 targetId payload crc =>
    frameLengthOk payload && frameCrcOk channel cmd1 cmd2 cmd3 targetId payload crc

end Sys2Proof
end

