-- ==== Sys2Proof/Decode.lean ====
section
/-! DEFINITION. The decoder from what is presented to the block to an instruction, total and rejecting by name; the
encoder, written from the same tables (R52, R54, R60); and the host's reading of one table word. -/

namespace Sys2Proof

/-- Why no instruction is selected. -/
inductive DecodeError where
  /-- `OP` 0x0 or 0x8 to 0xF selects no command (R59, U1). -/
  | reservedOp (op : BitVec 4)
  /-- `RX_STATE` 0 (`Idle`) or 6 (`Closed`) selects no step (R60, R95). -/
  | noStep (code : BitVec 3)
  /-- `RX_STATE` 7 is never reached (R20, U7). -/
  | reservedState
  /-- The bytes on the line do not begin with the marker: noise (R58 (a)). -/
  | noMarker
  /-- Fewer bytes than the frame has (R57). -/
  | truncated
  /-- The `length` field exceeds 1024: a corrupt header (R58 (b)). -/
  | corruptHeader (length : Half)
  /-- Bytes after the end of the frame: more than one frame's worth (R57). -/
  | trailing
deriving DecidableEq, Repr

/-- The host command that `OP` selects, with the operands R53 lists for it (R52); the other latches are not read. -/
def decodeCommand (c : Command) : Except DecodeError Instr :=
  let l := c.latches
  match c.op.toNat with
  | 1 => .ok (.crc16Compute l.data l.length l.seed)
  | 2 => .ok (.frameEncode l.channel l.cmd1 l.cmd2 l.cmd3 l.targetId l.payload)
  | 3 => .ok (.frameDecode l.buffer)
  | 4 => .ok (.sessionSend l.channel l.cmd1 l.cmd2 l.cmd3 l.targetId l.payload)
  | 5 => .ok .rxStart
  | 6 => .ok .sessionShutdown
  | 7 => .ok .sessionReset
  | _ => .error (.reservedOp c.op)

/-- The engine step that the `RX_STATE` code selects (R60). -/
def decodeEngine (code : BitVec 3) : Except DecodeError Instr :=
  match code.toNat with
  | 1 => .ok .rxRead
  | 2 => .ok .rxScan
  | 3 => .ok .rxDeliver
  | 4 => .ok .rxWait
  | 5 => .ok .rxResync
  | 7 => .error .reservedState
  | _ => .error (.noStep code)

/-- One wire frame, from its sync byte to its last CRC byte and no more (R54, R55, R57). The CRC field is read, not
judged: a frame whose CRC does not match is not well formed (R56) and is rejected by `FRAME.DECODE` (R82). -/
def decodeLine (b : List Byte) : Except DecodeError Instr :=
  if b.take 3 ≠ Config.preamble then .error .noMarker
  else if b.length < Config.hdrEnd then .error .truncated
  else
    let length := Machine.halfAt b 8
    if length.toNat > Config.maxPayload then .error (.corruptHeader length)
    else if b.length < Config.minFrame + length.toNat then .error .truncated
    else if b.length > Config.minFrame + length.toNat then .error .trailing
    else
      .ok (.frame (Machine.byteAt b 3) (Machine.byteAt b 4) (Machine.byteAt b 5) (Machine.byteAt b 6)
        (Machine.byteAt b 7) (Machine.slice b Config.hdrEnd length.toNat)
        (Machine.halfAt b (Config.hdrEnd + length.toNat)))

/-- The decoder. -/
def decode : Encoded → Except DecodeError Instr
  | .command c => decodeCommand c
  | .engine code => decodeEngine code
  | .line b => decodeLine b

/-- The encoder: how each instruction is presented (R52, R54, R60). Latches an operation does not read are zero. -/
def encode : Instr → Encoded
  | .crc16Compute data length seed => .command ⟨0x1, { data, length, seed }⟩
  | .frameEncode channel cmd1 cmd2 cmd3 targetId payload =>
    .command ⟨0x2, { channel, cmd1, cmd2, cmd3, targetId, payload }⟩
  | .frameDecode buffer => .command ⟨0x3, { buffer }⟩
  | .sessionSend channel cmd1 cmd2 cmd3 targetId payload =>
    .command ⟨0x4, { channel, cmd1, cmd2, cmd3, targetId, payload }⟩
  | .rxStart => .command ⟨0x5, {}⟩
  | .sessionShutdown => .command ⟨0x6, {}⟩
  | .sessionReset => .command ⟨0x7, {}⟩
  | .rxRead => .engine 1
  | .rxScan => .engine 2
  | .rxDeliver => .engine 3
  | .rxWait => .engine 4
  | .rxResync => .engine 5
  | .frame channel cmd1 cmd2 cmd3 targetId payload crc =>
    .line (Machine.frameBytes channel cmd1 cmd2 cmd3 targetId payload crc)

/-- The `n` bytes of a word, the byte in bits 7..0 first. -/
def wordBytes : Nat → Nat → List Byte
  | 0, _ => []
  | n + 1, w => BitVec.ofNat 8 w :: wordBytes n (w / 256)

/-- The ten bytes of a wire frame's front with the operand bytes above them zero: payload and CRC (R54). -/
def zeroPadded (front : List Byte) : List Byte :=
  front ++ List.replicate (2 + (Machine.halfAt front 8).toNat) 0

/-- How a word of spec/opcode_table.json is presented to the block (assumption 4). A row of 80 bits is the front of a
wire frame; its first byte is in bits 7..0, or in bits 79..72 where the word is written as the row writes its `match`.
A row of 3 bits is an `RX_STATE` code; any other row of at most 8 bits is an `OP` code with zero operands. -/
def tableEncoded (nbits w : Nat) : Encoded :=
  if nbits > 8 then
    let front := wordBytes 10 w
    .line (zeroPadded (if front.take 3 = Config.preamble then front else front.reverse))
  else if nbits = 3 then .engine (BitVec.ofNat 3 w)
  else .command ⟨BitVec.ofNat 4 w, {}⟩

/-- The instruction the decoder reads from a word of spec/opcode_table.json. -/
def decodeTableWord (nbits w : Nat) : Option Instr :=
  match decode (tableEncoded nbits w) with
  | .ok i => some i
  | .error _ => none

end Sys2Proof
end

