-- ==== Sys2Proof/Machine/State.lean ====
section
/-! DEFINITION. The state of the machine as plain data: the eight items of R13, which are the whole architectural
state of the block, and the model's own fields for what stands outside it (the command port, the line, the device
endpoint's answers and the order in which the agents move: R32, R36, R37, R45). -/

namespace Sys2Proof.Machine

/-- The status codes of R107. -/
inductive Status where
  | ok | invalidLength | payloadTooLarge | incomplete | corruptHeader | checksumMismatch | writeFailure | deviceClosed
deriving DecidableEq, Repr

/-- `RX_STATE`: the seven states of the receive engine (R20). -/
inductive RxState where
  | idle | reading | scanning | frameDelivered | incomplete | corrupt | closed
deriving DecidableEq, Repr

/-- `CLOSE_CAUSE`: why the engine entered `Closed` (R23). -/
inductive CloseCause where
  | none | shutdown | deviceClosed
deriving DecidableEq, Repr

/-- A Frame: a record of eleven fields (R14). -/
structure Frame where
  sync : Byte
  start1 : Byte
  start2 : Byte
  channel : Byte
  command1 : Byte
  command2 : Byte
  command3 : Byte
  targetId : Byte
  length : Half
  payload : List Byte
  crc : Half
deriving DecidableEq, Repr

/-- The values a command returns beside its status (R53). -/
inductive Value where
  /-- No value. -/
  | none
  /-- The `crc` of CRC16.COMPUTE. -/
  | crc (crc : Half)
  /-- The `bytes` of FRAME.ENCODE. -/
  | bytes (bytes : List Byte)
  /-- The `consumed` and `frame` of FRAME.DECODE. -/
  | decoded (consumed : Nat) (frame : Option Frame)
deriving DecidableEq, Repr

/-- The result of a host command: a status code plus the listed values (R53). -/
structure Response where
  status : Status
  value : Value := .none
deriving DecidableEq, Repr

/-- The contents of RXBUF: a byte sequence, front at index 0 (R26). -/
abbrev Memory := List Byte

/-- An agent that takes steps: the host, the receive engine, the device endpoint (R45). The consumer takes none that
the block can see (R31 (b)). -/
inductive Agent where
  | host | engine | device
deriving DecidableEq, Repr

/-- What the device endpoint chooses when the engine stands at a `DevRead` (R36): the read has not returned yet, or it
answers `Closed`, or up to `n` of the bytes it holds (`n = 0`, or a device that holds nothing, is the timeout
`Bytes([])`). -/
inductive ReadChoice where
  | notYet
  | closed
  | upTo (n : Nat)
deriving DecidableEq, Repr

/-- The device endpoint, outside the block: an oracle given as data (R31 (a), R32, U3; assumption 1). -/
structure Device where
  /-- Bytes it holds and has not returned, in line order. -/
  held : List Byte
  /-- Its choices at the coming turns of the engine in `Reading`; with none left a read never returns. -/
  readChoices : List ReadChoice
  /-- How many bytes it accepts at the coming `DevWrite`s; with none left a write hangs. -/
  writeChoices : List Nat
deriving DecidableEq, Repr

/-- The state of the machine. -/
structure State where
  /-- `RX_STATE` (R20). -/
  rxState : RxState
  /-- `RXBUF` (R26). -/
  rxbuf : Memory
  /-- `RX_FRAME` (R16). -/
  rxFrame : Option Frame
  /-- `SHUTDOWN_REQ` (R22). -/
  shutdownReq : Bool
  /-- `CLOSE_CAUSE` (R23). -/
  closeCause : CloseCause
  /-- `TX_FAULT` (R24). -/
  txFault : Bool
  /-- `DELIVERED`, oldest first (R25). -/
  delivered : List Frame
  /-- `TXLINE`, oldest first (R25). -/
  txline : List Byte
  /-- The model's own: a device read has been asked for and has not returned (R126, R142; assumption 14). -/
  readPending : Bool
  /-- The model's own: what the last completed command returned (assumption 3). -/
  response : Option Response
  /-- The model's own: the commands waiting at the port, the head first (R105; assumption 3). -/
  port : List Command
  /-- The model's own: which agents move next (R45; assumption 2). -/
  turns : List Agent
  /-- The model's own: runs of bytes on their way to the device endpoint (assumption 6). -/
  line : List (List Byte)
  /-- The model's own: the device endpoint (assumption 1). -/
  device : Device
deriving DecidableEq, Repr

/-- Reasons for the machine to stop with a fault. There is none: the block has no trap, and every error is a status
code or a state of the receive engine (R107, R112, R119; assumption 12). Safe. -/
inductive Fault where
deriving DecidableEq, Repr

/-- Reasons for the machine to have no transition. -/
inductive Refusal where
  /-- An instruction without a meaning yet, raised by `exec`'s arms only; no arm raises it. Safe. -/
  | notModelled (mnemonic : String)
  /-- The host presents `OP` 0x0 or 0x8 to 0xF, raised by the step: the spec refuses it (R59, U1). Safe. -/
  | reservedOp (op : BitVec 4)
  /-- `RX.START` when `RX_STATE` is not `Idle`: the spec refuses it (R101, U2). Safe. -/
  | startOutsideIdle
  /-- An engine step executed in an `RX_STATE` that does not select it: no such transition exists (R60, R89). The step
  function never raises it. Safe (assumption 7). -/
  | stepNotSelected
  /-- The `RX_STATE` code 7, which no rule reaches (R20, U7). The step function never raises it. Safe. -/
  | reservedRxState
deriving DecidableEq, Repr

/-- The state after power-on (R33); the model's own fields are empty (assumption 8). -/
def State.reset : State where
  rxState := .idle
  rxbuf := []
  rxFrame := none
  shutdownReq := false
  closeCause := .none
  txFault := false
  delivered := []
  txline := []
  readPending := false
  response := none
  port := []
  turns := []
  line := []
  device := { held := [], readChoices := [], writeChoices := [] }

end Sys2Proof.Machine
end

