-- ==== Sys2Proof/Machine/Flags.lean ====
section
/-! DEFINITION. The code numbers of the status and control registers, and the one flag-like computation of the block:
the status of the last scan selects the next `RX_STATE` (R20, R21, R23, R107). -/

namespace Sys2Proof.Machine

/-- The 4-bit `STATUS` codes (R107). -/
def Status.code : Status → BitVec 4
  | .ok => 0
  | .invalidLength => 1
  | .payloadTooLarge => 2
  | .incomplete => 3
  | .corruptHeader => 4
  | .checksumMismatch => 5
  | .writeFailure => 6
  | .deviceClosed => 7

/-- The 3-bit `RX_STATE` codes (R20). -/
def RxState.code : RxState → BitVec 3
  | .idle => 0
  | .reading => 1
  | .scanning => 2
  | .frameDelivered => 3
  | .incomplete => 4
  | .corrupt => 5
  | .closed => 6

/-- The state of a 3-bit code; 7 is no state (R20, U7). -/
def rxStateOfCode (code : BitVec 3) : Option RxState :=
  match code.toNat with
  | 0 => some .idle
  | 1 => some .reading
  | 2 => some .scanning
  | 3 => some .frameDelivered
  | 4 => some .incomplete
  | 5 => some .corrupt
  | 6 => some .closed
  | _ => none

/-- The 2-bit `CLOSE_CAUSE` codes (R23). -/
def CloseCause.code : CloseCause → BitVec 2
  | .none => 0
  | .shutdown => 1
  | .deviceClosed => 2

/-- The `RX_STATE` that the status of a scan selects (R21 (b), R91). -/
def verdictState : Status → RxState
  | .ok => .frameDelivered
  | .incomplete => .incomplete
  | _ => .corrupt

end Sys2Proof.Machine
end

