-- ==== Sys2Proof/Machine/Codec.lean ====
section
/-! DEFINITION. The Frame Codec as pure functions: serialising a frame and parsing a buffer (R71, R84). -/

namespace Sys2Proof.Machine

/-- FRAME.ENCODE: the bytes of the frame, or none when the payload is longer than 1024 bytes (`PayloadTooLarge`,
the only failure) (R71, R72). -/
def encodeFrame (channel cmd1 cmd2 cmd3 targetId : Byte) (payload : List Byte) : Option (List Byte) :=
  if payload.length > Config.maxPayload then none
  else
    some (frameBytes channel cmd1 cmd2 cmd3 targetId payload
      (bodyCrc (frameBody channel cmd1 cmd2 cmd3 targetId payload)))

/-- The least index at which the marker `FF 55 AA` stands in the buffer, if any (R77). -/
def findMarker : List Byte → Option Nat
  | [] => none
  | b :: rest => if (b :: rest).take 3 = Config.preamble then some 0 else (findMarker rest).map (· + 1)

/-- How many trailing bytes of a buffer without marker may begin one: the length of its longest suffix that is a
proper prefix of the marker (R78). -/
def keptSuffix (b : List Byte) : Nat :=
  let n := b.length
  if n ≥ 2 ∧ byteAt b (n - 2) = Config.sync ∧ byteAt b (n - 1) = Config.start1 then 2
  else if n ≥ 1 ∧ byteAt b (n - 1) = Config.sync then 1
  else 0

/-- The result of FRAME.DECODE: `(status, consumed, frame)` (R76). -/
structure Decoded where
  status : Status
  consumed : Nat
  frame : Option Frame := none
deriving DecidableEq, Repr

/-- The Frame record of a complete frame at index `p` whose `length` field is `length` (R55, R83). -/
def frameAt (b : List Byte) (p : Nat) (length : Half) : Frame where
  sync := Config.sync
  start1 := Config.start1
  start2 := Config.start2
  channel := byteAt b (p + 3)
  command1 := byteAt b (p + 4)
  command2 := byteAt b (p + 5)
  command3 := byteAt b (p + 6)
  targetId := byteAt b (p + 7)
  length := length
  payload := slice b (p + 10) length.toNat
  crc := halfAt b (p + 10 + length.toNat)

/-- FRAME.DECODE; the tests are made in exactly the order of R84. -/
def decodeFrame (b : List Byte) : Decoded :=
  match findMarker b with
  | none => { status := .incomplete, consumed := b.length - keptSuffix b }
  | some p =>
    if b.length - p < Config.hdrEnd then { status := .incomplete, consumed := p }
    else
      let length := halfAt b (p + 8)
      if length.toNat > Config.maxPayload then { status := .corruptHeader, consumed := p + 1 }
      else if b.length - p < Config.minFrame + length.toNat then { status := .incomplete, consumed := p }
      else if bodyCrc (slice b (p + 3) (Config.headerLen + length.toNat)) ≠ halfAt b (p + 10 + length.toNat) then
        { status := .checksumMismatch, consumed := p + 1 }
      else
        { status := .ok, consumed := p + Config.minFrame + length.toNat, frame := some (frameAt b p length) }

/-- CRC16.COMPUTE as a result: `InvalidLength` exactly when `length > len(data)`, checked first (R63, R66). -/
def crcResponse (data : List Byte) (length : Nat) (seed : Half) : Response :=
  if length > data.length then { status := .invalidLength }
  else { status := .ok, value := .crc (crc16 data length seed) }

/-- FRAME.ENCODE as a result (R71). -/
def encodeResponse (channel cmd1 cmd2 cmd3 targetId : Byte) (payload : List Byte) : Response :=
  match encodeFrame channel cmd1 cmd2 cmd3 targetId payload with
  | none => { status := .payloadTooLarge }
  | some bytes => { status := .ok, value := .bytes bytes }

/-- FRAME.DECODE as a result (R53, R76). -/
def decodeResponse (b : List Byte) : Response :=
  { status := (decodeFrame b).status, value := .decoded (decodeFrame b).consumed (decodeFrame b).frame }

end Sys2Proof.Machine
end

