-- ==== Sys2Proof/Machine/Ops.lean ====
section
/-! DEFINITION. The named operations over the state: the five access primitives of R34 to R38, the completion of a
host command, the block's one way of taking a fatal condition (closing the engine, R90, R112, R119) and the one way
back (the reset of R103, R120), and the host's view of the registers (R18). -/

namespace Sys2Proof.Machine

/-- The capacity invariant of RXBUF (R27 (a)). A byte sequence has one form per contents, so this is all that its
well-formedness asks. -/
abbrev Memory.wf (m : Memory) : Prop := m.length ≤ Config.rxCap

/-- RXBUF read of one byte: no side effect; none outside the buffer (R11, R35). -/
def Memory.read (m : Memory) (i : Nat) : Option Byte := m[i]?

/-- RXBUF append at the back (R35). -/
def Memory.append (m : Memory) (s : List Byte) : Memory := m ++ s

/-- RXBUF drop of the first `k` bytes (R35). -/
def Memory.dropFront (m : Memory) (k : Nat) : Memory := m.drop k

/-- RXBUF clear (R35). -/
def Memory.clear (_ : Memory) : Memory := []

/-- The free space of RXBUF, the size of the next device read (R90). -/
def Memory.free (m : Memory) : Nat := Config.rxCap - m.length

/-- The device endpoint's answer to a read (R36). -/
inductive ReadAnswer where
  | closed
  | bytes (s : List Byte)
deriving DecidableEq, Repr

/-- `DevRead(max)`: the device's answer, none while the read has not returned, and the device after it (R36). The bytes
are the next ones in line order, at most `max`, and leave the device. -/
def Device.read (d : Device) (max : Nat) : Option ReadAnswer × Device :=
  match d.readChoices with
  | [] => (none, d)
  | .notYet :: rest => (none, { d with readChoices := rest })
  | .closed :: rest => (some .closed, { d with readChoices := rest })
  | .upTo n :: rest =>
    let k := min n max
    (some (.bytes (d.held.take k)), { d with held := d.held.drop k, readChoices := rest })

/-- Whether a `DevRead` returns at this turn (R36). -/
def Device.returns (d : Device) : Bool :=
  match d.readChoices with
  | [] | .notYet :: _ => false
  | .closed :: _ | .upTo _ :: _ => true

/-- A device read is pending and does not return at this turn, so no RX.READ can happen (R36, R90, R126, R142). -/
def State.readBlocked (s : State) : Bool := s.readPending && !s.device.returns

/-- `DevWrite(s)`: how many leading bytes of `s` the device accepts, at most `len(s)`, and the device after it, or
none while the write hangs (R37). -/
def Device.write (d : Device) (s : List Byte) : Option (Nat × Device) :=
  match d.writeChoices with
  | [] => none
  | n :: rest => some (min n s.length, { d with writeChoices := rest })

/-- Bytes arrive at the device endpoint and wait there for a read, behind those it holds (R31 (a), R36, R117 (a)). -/
def State.arrive (s : State) (bytes : List Byte) : State :=
  { s with device := { s.device with held := s.device.held ++ bytes } }

/-- The accepted bytes go on the line and cannot be recalled (R37, R49). -/
def State.transmit (s : State) (bytes : List Byte) (d : Device) : State :=
  { s with txline := s.txline ++ bytes, device := d }

/-- `Deliver`: hand a Frame to the consumer (R38). The latch holds a Frame whenever the engine delivers (R16); with an
empty latch, in a state no run reaches, nothing is appended (assumption 9). -/
def State.deliver (s : State) : State :=
  { s with delivered := s.delivered ++ s.rxFrame.toList, rxFrame := none }

/-- A host command completes: its result is returned and the port turns to the next command (R53, R105). -/
def State.complete (s : State) (r : Response) : State :=
  { s with response := some r, port := s.port.tail }

/-- The engine enters `Closed` and latches the cause, in one transition (R50, R90, R115); no read stays pending. -/
def State.close (s : State) (cause : CloseCause) : State :=
  { s with rxState := .closed, closeCause := cause, readPending := false }

/-- The transition of SESSION.RESET: the six registers and buffers; not the histories (R33, R103), not the device
(R130). A pending device read is abandoned (assumption 14). -/
def State.sessionReset (s : State) : State :=
  { s with rxState := .idle, rxbuf := s.rxbuf.clear, rxFrame := none, shutdownReq := false, closeCause := .none,
           txFault := false, readPending := false }

/-- What the host can read at any time without side effect: the codes of four registers (R18, R28). -/
structure HostStatus where
  rxState : BitVec 3
  closeCause : BitVec 2
  shutdownReq : Bool
  txFault : Bool
deriving DecidableEq, Repr

/-- Status inspection (R18). -/
def State.hostStatus (s : State) : HostStatus where
  rxState := s.rxState.code
  closeCause := s.closeCause.code
  shutdownReq := s.shutdownReq
  txFault := s.txFault

/-- The outcome of one transition of this machine. -/
abbrev Result := Host.Outcome State Fault Refusal

/-- An engine step runs in the `RX_STATE` that selects it and in no other (R60, R89; assumption 7). -/
def inState (r : RxState) (s : State) (run : State → Result) : Result :=
  if s.rxState = r then run s else .refused .stepNotSelected

end Sys2Proof.Machine
end

