-- ==== Sys2Proof/Machine/Checksum.lean ====
section
/-! DEFINITION. The meaning of the one command of the CRC16 Checksum Unit. -/

namespace Sys2Proof.Machine

/-- `CRC16.COMPUTE` (R63, R66, R67): returns its result and reads and writes no state of the block. -/
def execCrc16Compute (data : List Byte) (length : Nat) (seed : Half) (s : State) : Result :=
  .next (s.complete (crcResponse data length seed))

end Sys2Proof.Machine
end

