-- ==== Sys2Proof/Machine/FrameCodec.lean ====
section
/-! DEFINITION. The meanings of the commands of the Frame Codec and of the wire frame. -/

namespace Sys2Proof.Machine

/-- `FRAME.ENCODE` (R71, R72, R74): returns its result and reads and writes no state of the block. -/
def execFrameEncode (channel cmd1 cmd2 cmd3 targetId : Byte) (payload : List Byte) (s : State) : Result :=
  .next (s.complete (encodeResponse channel cmd1 cmd2 cmd3 targetId payload))

/-- `FRAME.DECODE` as a host command (R84, R85): returns its result and reads and writes no state of the block. -/
def execFrameDecode (buffer : List Byte) (s : State) : Result :=
  .next (s.complete (decodeResponse buffer))

/-- `FRAME`: a wire frame (R54) reaches the device endpoint. Nothing of the block changes until an RX.READ takes its
bytes (R36, R117 (a)); FRAME.DECODE inside RX.SCAN then recognises it (assumption 6). -/
def execFrame (channel cmd1 cmd2 cmd3 targetId : Byte) (payload : List Byte) (crc : Half) (s : State) : Result :=
  .next (s.arrive (frameBytes channel cmd1 cmd2 cmd3 targetId payload crc))

end Sys2Proof.Machine
end

