-- ==== Sys2Proof/Machine/Receive.lean ====
section
/-! DEFINITION. The meanings of the five steps of the receive engine. -/

namespace Sys2Proof.Machine

/-- The body of RX.READ (R90): the shutdown flag is tested before the device is asked (R118 (b)). Where the device does
not return, the read is pending, and from then on no RX.READ happens until it returns (R36): meanwhile the engine stays in
`Reading` and a shutdown has no effect (R126, R142). When it returns, RX.READ happens as one transition and tests the
flag as it then is (R12, R89; assumption 14). -/
def readDevice (s : State) : State :=
  if s.shutdownReq && !s.readBlocked then s.close .shutdown
  else
    match s.device.read s.rxbuf.free with
    | (none, d) => { s with device := d, readPending := true }
    | (some .closed, d) => { s with device := d }.close .deviceClosed
    | (some (.bytes bs), d) =>
      { s with device := d, readPending := false, rxbuf := s.rxbuf.append bs, rxState := .scanning }

/-- `RX.READ` (R90). -/
def execRxRead (s : State) : Result :=
  inState .reading s fun s => .next (readDevice s)

/-- The body of RX.SCAN (R91): the consumed bytes are dropped for every status; a Frame is latched on `Ok`. -/
def scanBuffer (s : State) : State :=
  let r := decodeFrame s.rxbuf
  { s with
    rxbuf := s.rxbuf.dropFront r.consumed
    rxFrame := if r.status = .ok then r.frame else s.rxFrame
    rxState := verdictState r.status }

/-- `RX.SCAN` (R91). -/
def execRxScan (s : State) : Result :=
  inState .scanning s fun s => .next (scanBuffer s)

/-- `RX.DELIVER` (R92); the step does not test `SHUTDOWN_REQ` and never waits for the consumer. -/
def execRxDeliver (s : State) : Result :=
  inState .frameDelivered s fun s => .next { s.deliver with rxState := .scanning }

/-- `RX.WAIT` (R93). -/
def execRxWait (s : State) : Result :=
  inState .incomplete s fun s => .next { s with rxState := .reading }

/-- `RX.RESYNC` (R94). -/
def execRxResync (s : State) : Result :=
  inState .corrupt s fun s => .next { s with rxState := .scanning }

end Sys2Proof.Machine
end

