-- ==== Sys2Proof/Machine/Session.lean ====
section
/-! DEFINITION. The meanings of the session commands: send, start, shutdown, reset. -/

namespace Sys2Proof.Machine

/-- The one `DevWrite` of a SESSION.SEND (R37, R100): the accepted bytes are on the line; a short write sets `TX_FAULT`
and is `WriteFailure`. A write that hangs is a step not taken: nothing changes and the command stays at the port. -/
def writeFrame (bytes : List Byte) (s : State) : State :=
  match s.device.write bytes with
  | none => s
  | some (n, d) =>
    let sent := s.transmit (bytes.take n) d
    if n < bytes.length then { sent with txFault := true }.complete { status := .writeFailure }
    else sent.complete { status := .ok }

/-- `SESSION.SEND` (R100): `TX_FAULT` is tested first, then the payload size, then the write (R118 (c)). -/
def execSessionSend (channel cmd1 cmd2 cmd3 targetId : Byte) (payload : List Byte) (s : State) : Result :=
  if s.txFault then .next (s.complete { status := .writeFailure })
  else
    match encodeFrame channel cmd1 cmd2 cmd3 targetId payload with
    | none => .next (s.complete { status := .payloadTooLarge })
    | some bytes => .next (writeFrame bytes s)

/-- `RX.START` (R101): in `Idle` the engine starts reading; elsewhere the spec refuses the command. -/
def execRxStart (s : State) : Result :=
  if s.rxState = .idle then .next ({ s with rxState := .reading }.complete { status := .ok })
  else .refused .startOutsideIdle

/-- `SESSION.SHUTDOWN` (R102): sets `SHUTDOWN_REQ`, in every state. -/
def execSessionShutdown (s : State) : Result :=
  .next ({ s with shutdownReq := true }.complete { status := .ok })

/-- `SESSION.RESET` (R103): accepted in every state. -/
def execSessionReset (s : State) : Result :=
  .next (s.sessionReset.complete { status := .ok })

end Sys2Proof.Machine
end

