-- ==== Sys2Proof/Machine/Dispatch.lean ====
section
/-! DEFINITION. One arm per row of spec/opcode_table.json, each one direct call of the instruction's meaning. -/

namespace Sys2Proof.Machine

def exec (i : Instr) (s : State) : Host.Outcome State Fault Refusal :=
  match i with
  -- the CRC16 Checksum Unit
  | .crc16Compute data length seed => Sys2Proof.Machine.execCrc16Compute data length seed s
  -- the Frame Codec
  | .frameEncode channel cmd1 cmd2 cmd3 targetId payload => Sys2Proof.Machine.execFrameEncode channel cmd1 cmd2 cmd3 targetId payload s
  | .frameDecode buffer => Sys2Proof.Machine.execFrameDecode buffer s
  -- the session
  | .sessionSend channel cmd1 cmd2 cmd3 targetId payload => Sys2Proof.Machine.execSessionSend channel cmd1 cmd2 cmd3 targetId payload s
  | .rxStart => Sys2Proof.Machine.execRxStart s
  | .sessionShutdown => Sys2Proof.Machine.execSessionShutdown s
  | .sessionReset => Sys2Proof.Machine.execSessionReset s
  -- the receive engine
  | .rxRead => Sys2Proof.Machine.execRxRead s
  | .rxScan => Sys2Proof.Machine.execRxScan s
  | .rxDeliver => Sys2Proof.Machine.execRxDeliver s
  | .rxWait => Sys2Proof.Machine.execRxWait s
  | .rxResync => Sys2Proof.Machine.execRxResync s
  -- the line
  | .frame channel cmd1 cmd2 cmd3 targetId payload crc => Sys2Proof.Machine.execFrame channel cmd1 cmd2 cmd3 targetId payload crc s

end Sys2Proof.Machine
end

