-- ==== Sys2Proof/Machine/Fetch.lean ====
section
/-! DEFINITION. Which agent moves, what it presents to the block, and what happens where that selects no instruction
(R45, R52, R59, R60, R95, R105). -/

namespace Sys2Proof.Machine

/-- The agent that moves: the one whose turn is next on the tape; with no turn left the receive engine runs by itself
(R88; assumption 2). -/
def State.mover (s : State) : Agent := s.turns.headD .engine

/-- What the moving agent presents: the command at the port (R105), the step `RX_STATE` selects (R60), or the next run of
bytes on the line; none where the host or the line has nothing. -/
def fetch (s : State) : Option Encoded :=
  match s.mover with
  | .host => s.port.head?.map .command
  | .engine => some (.engine s.rxState.code)
  | .device => s.line.head?.map .line

/-- The turn is used up, and with it the run of bytes that the device takes from the line. A command leaves the port when
it completes, not before. -/
def State.takeTurn (s : State) : State :=
  { s with turns := s.turns.tail, line := if s.mover = .device then s.line.tail else s.line }

/-- What happens where no instruction is selected: a reserved `OP` is refused (R59); an engine with no step rests (R95);
bytes on the line that are not one frame arrive like any others, as noise or pieces of frames (R58 (a), R36). -/
def undecoded (e : Encoded) (err : DecodeError) (s : State) : Result :=
  match e with
  | .line bytes => .next (s.arrive bytes)
  | .engine _ =>
    match err with
    | .reservedState => .refused .reservedRxState
    | _ => .next s
  | .command c => .refused (.reservedOp c.op)

/-- A command is put at the port, and its turn comes next. -/
def State.placeCommand (s : State) (c : Command) : State :=
  { s with
    port := c :: s.port
    turns := .host :: s.turns
    device := { s.device with
      writeChoices :=
        if c.op = 4 ∧ s.device.writeChoices = [] then [0] else s.device.writeChoices } }

/-- The engine is put into the state of a code, and its turn comes next. -/
def State.placeStep (s : State) (code : BitVec 3) : State :=
  { s with
    rxState := (rxStateOfCode code).getD s.rxState
    turns := .engine :: s.turns
    device := { s.device with
      readChoices :=
        if code = 1 ∧ s.device.readChoices = [] then [.upTo 0] else s.device.readChoices } }

/-- A run of bytes is put on the line, and the device's turn comes next. -/
def State.placeLine (s : State) (bytes : List Byte) : State :=
  { s with line := bytes :: s.line, turns := .device :: s.turns }

/-- What is presented next is `e`. A device with no answer listed answers the operation as its all-zero oracle input
does: a read times out, a write accepts nothing (assumption 4). -/
def State.present (s : State) : Encoded → State
  | .command c => s.placeCommand c
  | .engine code => s.placeStep code
  | .line bytes => s.placeLine bytes

end Sys2Proof.Machine
end

