-- ==== Sys2Proof/Machine/Step.lean ====
section
/-! DEFINITION. One step of the machine: the agent whose turn it is takes one atomic transition (R12, R45). -/

namespace Sys2Proof.Machine

/-- One step: what the moving agent presents is decoded and executed. -/
def step (s : State) : Host.Outcome State Fault Refusal :=
  match fetch s with
  | none => .next s.takeTurn
  | some e =>
    match decode e with
    | .ok i => exec i s.takeTurn
    | .error err => undecoded e err s.takeTurn

/-- `s` with the instruction of a word of spec/opcode_table.json placed where the step takes its next instruction. -/
def State.withFetchWord (s : State) (nbits w : Nat) : State := s.present (tableEncoded nbits w)

end Sys2Proof.Machine
end

