-- ==== Sys2Proof/Safety.lean ====
section
/-! DEFINITION. What counts as a safe run, in the terms the claims use: valid Frames, the trimmed form of RXBUF, the
invariant of the machine, quiescence, and the Frames of a receive stream (R14, R27, R86, R104, R145). -/

namespace Sys2Proof.Machine

/-- The invariant of every Frame that FRAME.DECODE returns or RX.DELIVER delivers (R14). -/
abbrev Frame.Valid (f : Frame) : Prop :=
  f.sync = Config.sync ∧ f.start1 = Config.start1 ∧ f.start2 = Config.start2 ∧
  f.length.toNat ≤ Config.maxPayload ∧ f.length.toNat = f.payload.length ∧
  f.crc = bodyCrc (frameBody f.channel f.command1 f.command2 f.command3 f.targetId f.payload)

/-- The Frame record of the operands of a send, with the CRC of its body (R14, R75). -/
def frameOf (channel cmd1 cmd2 cmd3 targetId : Byte) (payload : List Byte) : Frame where
  sync := Config.sync
  start1 := Config.start1
  start2 := Config.start2
  channel := channel
  command1 := cmd1
  command2 := cmd2
  command3 := cmd3
  targetId := targetId
  length := BitVec.ofNat 16 payload.length
  payload := payload
  crc := bodyCrc (frameBody channel cmd1 cmd2 cmd3 targetId payload)

/-- Trimmed form: empty, a split marker, or an undecided frame from its sync byte on (R27 (b), R86 (c)). -/
abbrev Trimmed (b : List Byte) : Prop :=
  b = [] ∨ b = [Config.sync] ∨ b = [Config.sync, Config.start1] ∨
  (b.take 3 = Config.preamble ∧
    (b.length < Config.hdrEnd ∨
      ((halfAt b 8).toNat ≤ Config.maxPayload ∧ b.length < Config.minFrame + (halfAt b 8).toNat)))

/-- The invariant of the block: the derived invariants of R14, R16, R23 and R27. -/
structure State.Inv (s : State) : Prop where
  /-- R27 (a). -/
  buffer : Memory.wf s.rxbuf
  /-- R27 (b); in `Closed` too, which is entered from `Reading` with RXBUF unchanged (R89, R90). -/
  trimmed : s.rxState = .reading ∨ s.rxState = .incomplete ∨ s.rxState = .closed → Trimmed s.rxbuf
  /-- R27 (d). -/
  idle : s.rxState = .idle → s.rxbuf = []
  /-- R16. -/
  latch : s.rxFrame.isSome = true ↔ s.rxState = .frameDelivered
  /-- R23. -/
  cause : s.closeCause ≠ .none ↔ s.rxState = .closed
  /-- A device read is pending in `Reading` only (R126; assumption 14). -/
  pending : s.readPending = true → s.rxState = .reading
  /-- R14, for the latched Frame. -/
  latched : ∀ f ∈ s.rxFrame, f.Valid
  /-- R14, for the delivered Frames. -/
  delivered : ∀ f ∈ s.delivered, f.Valid

/-- No agent can move the block without a new input: `Idle`, `Closed`, or `Reading` with a device that has nothing to
return now, and no host command waiting (R145). A choice listed behind a `notYet` is a new answer still to come. In `Reading` a shutdown ends this only where no device read is pending yet, for
then the next RX.READ closes the engine without a new answer (R90, R142; assumption 14). -/
abbrev State.Quiescent (s : State) : Prop :=
  s.port = [] ∧
  (s.rxState = .idle ∨ s.rxState = .closed ∨
    (s.rxState = .reading ∧ s.device.returns = false ∧ (s.shutdownReq = false ∨ s.readPending = true)))

/-- The return value of `run_receive_loop()`, once the engine is `Closed` (R104). -/
def State.loopResult (s : State) : Option CloseCause :=
  if s.rxState = .closed then some s.closeCause else none

/-- Repeated decode-and-drop over a buffer until `Incomplete`, at most `fuel` times: the Frames found and the bytes left
(R86 (a), (g)). -/
def scanBytes : Nat → List Byte → List Frame × List Byte
  | 0, b => ([], b)
  | fuel + 1, b =>
    let r := decodeFrame b
    let rest := b.drop r.consumed
    match r.status with
    | .ok => (r.frame.toList ++ (scanBytes fuel rest).1, (scanBytes fuel rest).2)
    | .incomplete => ([], rest)
    | _ => scanBytes fuel rest

/-- The Frames of a receive stream and what is left of it: every call that is not `Incomplete` consumes a byte, so
`len(b) + 1` calls are enough (R86 (a)). -/
def framesIn (b : List Byte) : List Frame × List Byte := scanBytes (b.length + 1) b

/-- `t` is reached from `s` in `n` steps. -/
abbrev reaches (n : Nat) (s t : State) : Prop := Sys2Proof.core.run n s = .next t

end Sys2Proof.Machine
end

