-- ==== Sys2Proof/Certificates/Slice0/Obligations.lean ====
section
/-! DEFINITION. The statements about this model, each formalising or resting on the rules its docstring names. -/

open Sys2Proof Sys2Proof.Machine

/-! ## The CRC16 Checksum Unit -/

/-- R64: one step shifts left by one, XORs the polynomial where bit 15 was 1 before the shift, and masks to 16 bits;
said on natural numbers. -/
def Obligations.CrcBitShiftsAndXorsPolynomial : Prop :=
  ∀ acc : Half,
    (crcBit acc).toNat =
      if acc.toNat / 2 ^ 15 = 1 then ((acc.toNat <<< 1) ^^^ 0x1021) &&& 0xFFFF else (acc.toNat <<< 1) &&& 0xFFFF

/-- R65: the byte is XORed into bits 15..8 once, then eight steps are taken. -/
def Obligations.CrcByteXorsThenStepsEightTimes : Prop :=
  ∀ (acc : Half) (b : Byte),
    ∃ a : Half, a.toNat = acc.toNat ^^^ (b.toNat <<< 8) ∧ crcByte acc b = crcBit^[8] a

/-- R63: CRC16.COMPUTE returns `InvalidLength` or the accumulator after the first `length` bytes, which starts at the
seed and takes one byte at a time in increasing order; no state of the block is touched. -/
def Obligations.CrcComputeResult : Prop :=
  ∀ (data : List Byte) (length : Nat) (seed : Half) (s : State),
    exec (.crc16Compute data length seed) s =
      .next { s with
        port := s.port.tail
        response := some
          (if length > data.length then { status := .invalidLength }
           else { status := .ok, value := .crc (crc16 data length seed) }) } ∧
    crc16 data 0 seed = seed ∧
    ∀ i < data.length, crc16 data (i + 1) seed = crcByte (crc16 data i seed) (byteAt data i)

/-- R69 (b) and (c): a long input may be processed in pieces, the result of one being the seed of the next; bytes at
index `n` and beyond are ignored. -/
def Obligations.CrcChainsOverPieces : Prop :=
  ∀ (d : List Byte) (k n : Nat) (seed : Half), k ≤ n → n ≤ d.length →
    crc16 d n seed = crc16 ((d.drop k).take (n - k)) (n - k) (crc16 d k seed) ∧
    crc16 d n seed = crc16 (d.take n) n seed

/-- R69 (d): with seed 0 any number of leading zero bytes leaves the accumulator at 0. -/
def Obligations.CrcIgnoresLeadingZerosWithSeedZero : Prop :=
  ∀ (k n : Nat) (d : List Byte), crc16 (List.replicate k 0 ++ d) (k + n) 0 = crc16 d n 0

/-- R69 (e): appending the CRC, high byte first, makes the CRC of the whole zero, for every seed. -/
def Obligations.CrcOfMessageWithItsCrcIsZero : Prop :=
  ∀ (m : List Byte) (seed : Half),
    crc16 (m ++ [hiByte (crc16 m m.length seed), loByte (crc16 m m.length seed)]) (m.length + 2) seed = 0

/-- R69 (f): the CRC is linear over XOR. -/
def Obligations.CrcIsLinearOverXor : Prop :=
  ∀ (a b : List Byte) (seedA seedB : Half), a.length = b.length →
    crc16 a a.length seedA ^^^ crc16 b b.length seedB =
      crc16 (List.zipWith (· ^^^ ·) a b) a.length (seedA ^^^ seedB)

/-- R70: the bit-at-a-time step on a byte equals the step of a 256-entry table indexed by the high byte of the
accumulator XOR the data byte, the table's entries being the CRCs of single bytes. -/
def Obligations.CrcByteEqualsTableLookup : Prop :=
  ∀ (acc : Half) (b : Byte), crcByte acc b = (acc <<< 8) ^^^ crcByte 0 (hiByte acc ^^^ b)

/-! ## The Frame Codec -/

/-- R71: FRAME.ENCODE returns `PayloadTooLarge`, or the preamble, the seven header bytes, the payload and the CRC of
header and payload, high byte first; no state of the block is touched. -/
def Obligations.FrameEncodeResult : Prop :=
  ∀ (channel cmd1 cmd2 cmd3 targetId : Byte) (payload : List Byte) (s : State),
    let n := payload.length
    let header : List Byte :=
      [channel, cmd1, cmd2, cmd3, targetId, BitVec.ofNat 8 ((n >>> 8) &&& 0xFF), BitVec.ofNat 8 (n &&& 0xFF)]
    let body := header ++ payload
    let c := (crc16 body (7 + n) 0).toNat
    exec (.frameEncode channel cmd1 cmd2 cmd3 targetId payload) s =
      .next { s with
        port := s.port.tail
        response := some
          (if n > 1024 then { status := .payloadTooLarge }
           else { status := .ok,
                  value := .bytes (([0xFF, 0x55, 0xAA] : List Byte) ++ body ++
                    [BitVec.ofNat 8 ((c >>> 8) &&& 0xFF), BitVec.ofNat 8 (c &&& 0xFF)]) }) }

/-- R73: the shape of an encoded frame, field by field, with the residue law for its tail. -/
def Obligations.EncodedFrameShape : Prop :=
  ∀ (channel cmd1 cmd2 cmd3 targetId : Byte) (payload bytes : List Byte),
    encodeFrame channel cmd1 cmd2 cmd3 targetId payload = some bytes →
    let n := payload.length
    bytes.length = 12 + n ∧ bytes.take 3 = [0xFF, 0x55, 0xAA] ∧
    byteAt bytes 3 = channel ∧ byteAt bytes 4 = cmd1 ∧ byteAt bytes 5 = cmd2 ∧ byteAt bytes 6 = cmd3 ∧
    byteAt bytes 7 = targetId ∧ (byteAt bytes 8).toNat = n / 256 ∧ (byteAt bytes 9).toNat = n % 256 ∧
    (byteAt bytes 8).toNat ≤ 4 ∧ (byteAt bytes 8 = 4 → n = 1024 ∧ byteAt bytes 9 = 0) ∧
    slice bytes 10 n = payload ∧
    halfAt bytes (10 + n) = crc16 (slice bytes 3 (7 + n)) (7 + n) 0 ∧
    crc16 (slice bytes 3 (9 + n)) (9 + n) 0 = 0

/-- R84: FRAME.DECODE as a host command. With the marker first at `p` the tests are made in order: header complete,
length legal, frame complete, CRC; without a marker all but a trailing `FF` or `FF 55` is consumed. -/
def Obligations.FrameDecodeResult : Prop :=
  ∀ (b : List Byte) (s : State),
    (∀ p, p + 2 < b.length → byteAt b p = 0xFF → byteAt b (p + 1) = 0x55 → byteAt b (p + 2) = 0xAA →
      (∀ i < p, ¬ (byteAt b i = 0xFF ∧ byteAt b (i + 1) = 0x55 ∧ byteAt b (i + 2) = 0xAA)) →
      let n := (byteAt b (p + 8)).toNat * 256 + (byteAt b (p + 9)).toNat
      let c := crc16 ((b.drop (p + 3)).take (7 + n)) (7 + n) 0
      exec (.frameDecode b) s =
        .next { s with
          port := s.port.tail
          response := some
            (if b.length - p < 10 then { status := .incomplete, value := .decoded p none }
             else if n > 1024 then { status := .corruptHeader, value := .decoded (p + 1) none }
             else if b.length - p < 12 + n then { status := .incomplete, value := .decoded p none }
             else if c.toNat ≠ (byteAt b (p + 10 + n)).toNat * 256 + (byteAt b (p + 11 + n)).toNat then
               { status := .checksumMismatch, value := .decoded (p + 1) none }
             else
               { status := .ok,
                 value := .decoded (p + 12 + n) (some
                   { sync := 0xFF, start1 := 0x55, start2 := 0xAA, channel := byteAt b (p + 3),
                     command1 := byteAt b (p + 4), command2 := byteAt b (p + 5), command3 := byteAt b (p + 6),
                     targetId := byteAt b (p + 7), length := BitVec.ofNat 16 n,
                     payload := (b.drop (p + 10)).take n, crc := c }) }) }) ∧
    ((∀ i, i + 2 < b.length → ¬ (byteAt b i = 0xFF ∧ byteAt b (i + 1) = 0x55 ∧ byteAt b (i + 2) = 0xAA)) →
      let n := b.length
      let k := if 2 ≤ n ∧ byteAt b (n - 2) = 0xFF ∧ byteAt b (n - 1) = 0x55 then 2
               else if 1 ≤ n ∧ byteAt b (n - 1) = 0xFF then 1 else 0
      exec (.frameDecode b) s =
        .next { s with
          port := s.port.tail
          response := some { status := .incomplete, value := .decoded (n - k) none } })

/-- R75: what FRAME.ENCODE answers with `Ok`, FRAME.DECODE answers with `Ok`, the original fields and the full byte
length consumed. -/
def Obligations.EncodeThenDecodeGivesOriginalFields : Prop :=
  ∀ (channel cmd1 cmd2 cmd3 targetId : Byte) (payload : List Byte) (s u : State), payload.length ≤ 1024 →
    ∃ bytes,
      exec (.frameEncode channel cmd1 cmd2 cmd3 targetId payload) s =
        .next { s with port := s.port.tail, response := some { status := .ok, value := .bytes bytes } } ∧
      exec (.frameDecode bytes) u =
        .next { u with
          port := u.port.tail
          response := some
            { status := .ok,
              value := .decoded (12 + payload.length)
                (some
                  { sync := 0xFF, start1 := 0x55, start2 := 0xAA, channel := channel, command1 := cmd1, command2 := cmd2,
                    command3 := cmd3, targetId := targetId, length := BitVec.ofNat 16 payload.length, payload := payload,
                    crc := halfAt bytes (10 + payload.length) }) } }

/-- R76, R86 (a) and R14: the four statuses of the decoder, its bounds, its progress, and that every Frame it returns is
valid. -/
def Obligations.DecodeBoundsProgressAndValidity : Prop :=
  ∀ b : List Byte,
    let r := decodeFrame b
    r.status ∈ [Status.ok, .incomplete, .corruptHeader, .checksumMismatch] ∧ r.consumed ≤ b.length ∧
    (r.frame.isSome = true ↔ r.status = .ok) ∧ (∀ f ∈ r.frame, f.Valid) ∧
    (r.status = .ok → 12 ≤ r.consumed) ∧
    (r.status = .corruptHeader ∨ r.status = .checksumMismatch → 1 ≤ r.consumed)

/-- R86 (b) and (c): after `Incomplete`, scanning again without new bytes changes nothing, and what is left is in trimmed
form and at most 1035 bytes long. -/
def Obligations.IncompleteLeavesTrimmedBuffer : Prop :=
  ∀ b : List Byte, (decodeFrame b).status = .incomplete →
    let rest := b.drop (decodeFrame b).consumed
    decodeFrame rest = { status := .incomplete, consumed := 0, frame := none } ∧ Trimmed rest ∧ rest.length ≤ 1035

/-- R86 (d): a candidate frame is always decided once 1036 bytes from its sync byte are present. -/
def Obligations.CandidateDecidedWithinMaxFrame : Prop :=
  ∀ b : List Byte, b.take 3 = [0xFF, 0x55, 0xAA] → 1036 ≤ b.length → (decodeFrame b).status ≠ .incomplete

/-- R86 (f): bytes that arrive later never change a verdict already reached, and never un-consume a byte. -/
def Obligations.LaterBytesNeverChangeVerdict : Prop :=
  ∀ b t : List Byte,
    ((decodeFrame b).status ≠ .incomplete → decodeFrame (b ++ t) = decodeFrame b) ∧
    ((decodeFrame b).status = .incomplete → (decodeFrame b).consumed ≤ (decodeFrame (b ++ t)).consumed)

/-- R86 (g): the Frames of a stream do not depend on how it is cut into reads. -/
def Obligations.FramesIndependentOfStreamCutting : Prop :=
  ∀ b t : List Byte,
    framesIn (b ++ t) =
      ((framesIn b).1 ++ (framesIn ((framesIn b).2 ++ t)).1, (framesIn ((framesIn b).2 ++ t)).2)

/-- R47, R75, R98: the wire bytes of any sequence of valid Frames, sent back to back, decode to exactly those Frames in
that order, with nothing left over. -/
def Obligations.BackToBackFramesDecodeInOrder : Prop :=
  ∀ fs : List Frame, (∀ f ∈ fs, f.Valid) →
    framesIn (fs.flatMap fun f =>
      frameBytes f.channel f.command1 f.command2 f.command3 f.targetId f.payload f.crc) = (fs, [])

/-- R87 (a) and (b): one flipped bit of a one-byte header field, of the payload or of the CRC field of an encoded frame
is always reported as `ChecksumMismatch`, with one byte consumed. -/
def Obligations.SingleBitErrorIsChecksumMismatch : Prop :=
  ∀ (channel cmd1 cmd2 cmd3 targetId : Byte) (payload bytes : List Byte) (i bit : Nat),
    encodeFrame channel cmd1 cmd2 cmd3 targetId payload = some bytes →
    (3 ≤ i ∧ i ≤ 7) ∨ (10 ≤ i ∧ i < 12 + payload.length) → bit < 8 →
    decodeFrame (bytes.set i (byteAt bytes i ^^^ BitVec.ofNat 8 (2 ^ bit))) =
      { status := .checksumMismatch, consumed := 1, frame := none }

/-- R87 (c) and (d): the verdict on a buffer that holds exactly one encoded frame whose `length` field was made larger, by
one bit or otherwise: `CorruptHeader`, one byte consumed, when the length is above 1024, and `Incomplete`, nothing consumed,
when it is legal. What bytes that arrive later make of it is not said here. -/
def Obligations.InflatedLengthAloneIsCorruptOrIncomplete : Prop :=
  ∀ (channel cmd1 cmd2 cmd3 targetId : Byte) (payload bytes : List Byte) (n : Half),
    encodeFrame channel cmd1 cmd2 cmd3 targetId payload = some bytes → payload.length < n.toNat →
    decodeFrame ((bytes.set 8 (hiByte n)).set 9 (loByte n)) =
      if 1024 < n.toNat then { status := .corruptHeader, consumed := 1, frame := none }
      else { status := .incomplete, consumed := 0, frame := none }

/-- R87 (e), R139, R140: an error in the `length` field can be accepted. An all-zero frame with a payload of 2 to 1024
zero bytes whose `length` bytes are cleared decodes `Ok` as an empty frame of 12 bytes; for 1024 bytes that is one flipped
bit. -/
def Obligations.ClearedLengthOfZeroFrameIsAccepted : Prop :=
  ∀ (n : Nat) (bytes : List Byte), 2 ≤ n → n ≤ 1024 →
    encodeFrame 0 0 0 0 0 (List.replicate n 0) = some bytes →
    decodeFrame ((bytes.set 8 0).set 9 0) = { status := .ok, consumed := 12, frame := some (frameOf 0 0 0 0 0 []) }

/-! ## The session commands -/

/-- R100: SESSION.SEND tests `TX_FAULT`, then the payload size, then makes one device write whose accepted bytes go on the
line; a short write sets `TX_FAULT`. Nothing the receive engine touches changes. `n` is what the device chooses to accept:
that the choice is listed in the state, and is cut to the length of the frame, is the model's own rendering
(assumption 1). -/
def Obligations.SessionSendResult : Prop :=
  ∀ (channel cmd1 cmd2 cmd3 targetId : Byte) (payload : List Byte) (s : State),
    (s.txFault = true →
      exec (.sessionSend channel cmd1 cmd2 cmd3 targetId payload) s =
        .next { s with port := s.port.tail, response := some { status := .writeFailure } }) ∧
    (s.txFault = false → 1024 < payload.length →
      exec (.sessionSend channel cmd1 cmd2 cmd3 targetId payload) s =
        .next { s with port := s.port.tail, response := some { status := .payloadTooLarge } }) ∧
    (s.txFault = false → payload.length ≤ 1024 → ∀ n rest, s.device.writeChoices = n :: rest →
      ∃ bytes, encodeFrame channel cmd1 cmd2 cmd3 targetId payload = some bytes ∧ bytes.length = 12 + payload.length ∧
        (n < bytes.length →
          exec (.sessionSend channel cmd1 cmd2 cmd3 targetId payload) s =
            .next { s with
              txline := s.txline ++ bytes.take n
              txFault := true
              device := { s.device with writeChoices := rest }
              port := s.port.tail
              response := some { status := .writeFailure } }) ∧
        (bytes.length ≤ n →
          exec (.sessionSend channel cmd1 cmd2 cmd3 targetId payload) s =
            .next { s with
              txline := s.txline ++ bytes
              device := { s.device with writeChoices := rest }
              port := s.port.tail
              response := some { status := .ok } }))

/-- R37: a write that hangs is a SESSION.SEND that is not taken: nothing changes and the command stays at the port. That a
device with no answer listed hangs is the model's own rendering (assumption 1). -/
def Obligations.SendWaitsWhileWriteHangs : Prop :=
  ∀ (channel cmd1 cmd2 cmd3 targetId : Byte) (payload : List Byte) (s : State),
    s.txFault = false → payload.length ≤ 1024 → s.device.writeChoices = [] →
    exec (.sessionSend channel cmd1 cmd2 cmd3 targetId payload) s = .next s

/-- R101: RX.START moves `Idle` to `Reading` and answers `Ok`; outside `Idle` it is refused. -/
def Obligations.RxStartResult : Prop :=
  ∀ s : State,
    (s.rxState = .idle →
      exec .rxStart s = .next { s with rxState := .reading, port := s.port.tail, response := some { status := .ok } }) ∧
    (s.rxState ≠ .idle → exec .rxStart s = .refused .startOutsideIdle)

/-- R102: SESSION.SHUTDOWN sets the flag in every state and nothing else; where no device read is pending the engine closes
at its next RX.READ, with the cause `Shutdown` and without asking the device, whatever answers are listed. That the state
says whether a read is pending is the model's own rendering (assumption 14). -/
def Obligations.SessionShutdownResult : Prop :=
  ∀ s : State,
    exec .sessionShutdown s =
      .next { s with shutdownReq := true, port := s.port.tail, response := some { status := .ok } } ∧
    (s.shutdownReq = true → s.rxState = .reading → s.readPending = false →
      exec .rxRead s = .next { s with rxState := .closed, closeCause := .shutdown, readPending := false })

/-- R33, R103: SESSION.RESET gives the six registers and buffers the values they have after power-on and leaves the
histories, the line and the device; it is accepted in every state. That it abandons a pending device read is the model's own
choice (assumption 14). -/
def Obligations.SessionResetResult : Prop :=
  (State.reset.rxState = .idle ∧ State.reset.rxbuf = [] ∧ State.reset.rxFrame = none ∧
    State.reset.shutdownReq = false ∧ State.reset.closeCause = .none ∧ State.reset.txFault = false ∧
    State.reset.delivered = [] ∧ State.reset.txline = []) ∧
  ∀ s : State,
    exec .sessionReset s =
      .next { s with
        rxState := .idle, rxbuf := [], rxFrame := none, shutdownReq := false, closeCause := .none, txFault := false
        readPending := false, port := s.port.tail, response := some { status := .ok } }

/-! ## The receive engine -/

/-- R36, R90: RX.READ. A pending shutdown closes the engine without a device read; a device that answers `Closed` closes it
too; otherwise the bytes of the answer, the next ones the device holds and at most the free space, are appended. A read
that has not returned is pending and leaves the eight items of the block as they are; while it is pending a shutdown has
no effect, and when it returns RX.READ happens and tests the flag. The model's own choices in it: the listed answers and
their cut to what was asked for (assumption 1); that a full RXBUF, which no run reaches, asks for nothing and gets nothing
(assumption 8); the field that says that a read is pending, and that the answer is not taken where the read returns to a
pending shutdown (assumption 14). -/
def Obligations.RxReadResult : Prop :=
  ∀ s : State, s.rxState = .reading →
    (s.shutdownReq = true → s.readPending = false →
      exec .rxRead s = .next { s with rxState := .closed, closeCause := .shutdown, readPending := false }) ∧
    (s.shutdownReq = true → ∀ c rest, s.device.readChoices = c :: rest → c ≠ .notYet →
      exec .rxRead s = .next { s with rxState := .closed, closeCause := .shutdown, readPending := false }) ∧
    (s.shutdownReq = false → ∀ rest, s.device.readChoices = .closed :: rest →
      exec .rxRead s =
        .next { s with
          rxState := .closed
          closeCause := .deviceClosed
          readPending := false
          device := { s.device with readChoices := rest } }) ∧
    (s.shutdownReq = false → ∀ n rest, s.device.readChoices = .upTo n :: rest →
      let k := min n (Config.rxCap - s.rxbuf.length)
      exec .rxRead s =
        .next { s with
          rxState := .scanning
          rxbuf := s.rxbuf ++ s.device.held.take k
          readPending := false
          device := { s.device with held := s.device.held.drop k, readChoices := rest } }) ∧
    (s.shutdownReq = false ∨ s.readPending = true →
      (s.device.readChoices = [] → exec .rxRead s = .next { s with readPending := true }) ∧
      (∀ rest, s.device.readChoices = .notYet :: rest →
        exec .rxRead s = .next { s with readPending := true, device := { s.device with readChoices := rest } }))

/-- R91: RX.SCAN drops the consumed bytes for every status, latches the Frame on `Ok`, and selects the next state. -/
def Obligations.RxScanResult : Prop :=
  ∀ s : State, s.rxState = .scanning →
    let r := decodeFrame s.rxbuf
    exec .rxScan s =
      if r.status = .ok then
        .next { s with rxbuf := s.rxbuf.drop r.consumed, rxFrame := r.frame, rxState := .frameDelivered }
      else if r.status = .incomplete then .next { s with rxbuf := s.rxbuf.drop r.consumed, rxState := .incomplete }
      else .next { s with rxbuf := s.rxbuf.drop r.consumed, rxState := .corrupt }

/-- R92: RX.DELIVER appends the latched Frame to `DELIVERED`, empties the latch and goes back to `Scanning`. -/
def Obligations.RxDeliverResult : Prop :=
  ∀ (s : State) (f : Frame), s.rxState = .frameDelivered → s.rxFrame = some f →
    exec .rxDeliver s = .next { s with delivered := s.delivered ++ [f], rxFrame := none, rxState := .scanning }

/-- R93: RX.WAIT goes back to `Reading`; nothing else changes. -/
def Obligations.RxWaitResult : Prop :=
  ∀ s : State, s.rxState = .incomplete → exec .rxWait s = .next { s with rxState := .reading }

/-- R94: RX.RESYNC goes back to `Scanning`; nothing else changes. -/
def Obligations.RxResyncResult : Prop :=
  ∀ s : State, s.rxState = .corrupt → exec .rxResync s = .next { s with rxState := .scanning }

/-- R60, R89: an engine step has no transition outside the state that selects it. That executing it there is a refusal is
the model's own rendering (assumption 7). -/
def Obligations.EngineStepRefusedOutsideItsState : Prop :=
  ∀ s : State,
    (s.rxState ≠ .reading → exec .rxRead s = .refused .stepNotSelected) ∧
    (s.rxState ≠ .scanning → exec .rxScan s = .refused .stepNotSelected) ∧
    (s.rxState ≠ .frameDelivered → exec .rxDeliver s = .refused .stepNotSelected) ∧
    (s.rxState ≠ .incomplete → exec .rxWait s = .refused .stepNotSelected) ∧
    (s.rxState ≠ .corrupt → exec .rxResync s = .refused .stepNotSelected)

/-- R89: the transition table of `RX_STATE`, complete: every change of `RX_STATE` and of `CLOSE_CAUSE` is a row of it,
with the row's step and condition. -/
def Obligations.TransitionTableIsComplete : Prop :=
  ∀ (i : Instr) (s t : State), exec i s = .next t →
    (t.rxState = s.rxState ∧ t.closeCause = s.closeCause) ∨
    (s.rxState = .idle ∧ t.rxState = .reading ∧ i = .rxStart ∧ t.closeCause = s.closeCause) ∨
    (s.rxState = .reading ∧ t.rxState = .closed ∧ i = .rxRead ∧ s.shutdownReq = true ∧ t.closeCause = .shutdown) ∨
    (s.rxState = .reading ∧ t.rxState = .closed ∧ i = .rxRead ∧ s.shutdownReq = false ∧
      s.device.readChoices.head? = some .closed ∧ t.closeCause = .deviceClosed) ∨
    (s.rxState = .reading ∧ t.rxState = .scanning ∧ i = .rxRead ∧ s.shutdownReq = false ∧
      (∃ n, s.device.readChoices.head? = some (.upTo n)) ∧ t.closeCause = s.closeCause) ∨
    (s.rxState = .scanning ∧ t.rxState = .frameDelivered ∧ i = .rxScan ∧ (decodeFrame s.rxbuf).status = .ok ∧
      t.closeCause = s.closeCause) ∨
    (s.rxState = .scanning ∧ t.rxState = .incomplete ∧ i = .rxScan ∧ (decodeFrame s.rxbuf).status = .incomplete ∧
      t.closeCause = s.closeCause) ∨
    (s.rxState = .scanning ∧ t.rxState = .corrupt ∧ i = .rxScan ∧
      ((decodeFrame s.rxbuf).status = .corruptHeader ∨ (decodeFrame s.rxbuf).status = .checksumMismatch) ∧
      t.closeCause = s.closeCause) ∨
    (s.rxState = .frameDelivered ∧ t.rxState = .scanning ∧ i = .rxDeliver ∧ t.closeCause = s.closeCause) ∨
    (s.rxState = .incomplete ∧ t.rxState = .reading ∧ i = .rxWait ∧ t.closeCause = s.closeCause) ∨
    (s.rxState = .corrupt ∧ t.rxState = .scanning ∧ i = .rxResync ∧ t.closeCause = s.closeCause) ∨
    (t.rxState = .idle ∧ i = .sessionReset ∧ t.closeCause = .none)

/-! ## The whole machine -/

/-- R14, R16, R23, R27: the invariant of the block is kept by every step, from every state that meets it. Its clause that a
device read is pending in `Reading` only is about the model's own field (assumption 14). -/
def Obligations.StepKeepsInvariant : Prop :=
  ∀ s t : State, s.Inv → step s = .next t → t.Inv

/-- R33: the invariant of the block holds after power-on. -/
def Obligations.ResetMeetsInvariant : Prop := State.reset.Inv

/-- R27 (c), R97: in `Reading` the buffer holds at most 1035 bytes, so RX.READ always has room to ask for. -/
def Obligations.ReadingAlwaysHasRoom : Prop :=
  ∀ s : State, s.Inv → s.rxState = .reading →
    s.rxbuf.length ≤ 1035 ∧ Config.rxCap - 1035 ≤ s.rxbuf.free ∧ 1 ≤ s.rxbuf.free

/-- R35, R46, R103: no operation but SESSION.RESET loses, duplicates or reorders a received byte. RX.READ moves bytes from
the front of what the device holds to the back of RXBUF; RX.SCAN drops from the front of RXBUF exactly the bytes that
FRAME.DECODE consumed; an arriving FRAME adds exactly its bytes behind what the device holds (assumption 6); SESSION.RESET
loses RXBUF and leaves the bytes in the device; no other operation touches either. -/
def Obligations.ReceivedBytesKeepLineOrder : Prop :=
  ∀ (i : Instr) (s t : State), exec i s = .next t →
    match i with
    | .rxRead => s.rxbuf <+: t.rxbuf ∧ t.rxbuf ++ t.device.held = s.rxbuf ++ s.device.held
    | .rxScan =>
      s.rxbuf.take (decodeFrame s.rxbuf).consumed ++ t.rxbuf = s.rxbuf ∧ (decodeFrame s.rxbuf).consumed ≤ s.rxbuf.length ∧
        t.device.held = s.device.held
    | .frame channel cmd1 cmd2 cmd3 targetId payload crc =>
      t.rxbuf = s.rxbuf ∧
        t.device.held = s.device.held ++ frameBytes channel cmd1 cmd2 cmd3 targetId payload crc
    | .sessionReset => t.rxbuf = [] ∧ t.device.held = s.device.held
    | _ => t.rxbuf = s.rxbuf ∧ t.device.held = s.device.held

/-- R25: nothing removes or reorders the entries of the two output histories, whatever the step. -/
def Obligations.HistoriesOnlyGrow : Prop :=
  ∀ s t : State, step s = .next t → s.delivered <+: t.delivered ∧ s.txline <+: t.txline

/-- R18: which operation writes which state; every other item is unchanged. -/
def Obligations.WritesFollowAccessTable : Prop :=
  ∀ (i : Instr) (s t : State), exec i s = .next t →
    (i ∉ [Instr.rxStart, .sessionReset, .rxRead, .rxScan, .rxDeliver, .rxWait, .rxResync] → t.rxState = s.rxState) ∧
    (i ∉ [Instr.sessionReset, .rxRead, .rxScan] → t.rxbuf = s.rxbuf) ∧
    (i ∉ [Instr.sessionReset, .rxScan, .rxDeliver] → t.rxFrame = s.rxFrame) ∧
    (i ∉ [Instr.sessionShutdown, .sessionReset] → t.shutdownReq = s.shutdownReq) ∧
    (i ∉ [Instr.sessionReset, .rxRead] → t.closeCause = s.closeCause) ∧
    (i ≠ .rxDeliver → t.delivered = s.delivered) ∧
    ((∀ channel cmd1 cmd2 cmd3 targetId payload, i ≠ .sessionSend channel cmd1 cmd2 cmd3 targetId payload) →
      t.txline = s.txline ∧ (i ≠ .sessionReset → t.txFault = s.txFault))

/-- R22, R24: `SHUTDOWN_REQ` and `TX_FAULT` are sticky: only SESSION.RESET clears them. -/
def Obligations.OnlyResetClearsStickyFlags : Prop :=
  ∀ (i : Instr) (s t : State), exec i s = .next t → i ≠ .sessionReset →
    (s.shutdownReq = true → t.shutdownReq = true) ∧ (s.txFault = true → t.txFault = true)

/-- R48: the send path and the receive engine share no state: a SESSION.SEND and an engine step lead to the same state in
either order. -/
def Obligations.SendCommutesWithEngineSteps : Prop :=
  ∀ (channel cmd1 cmd2 cmd3 targetId : Byte) (payload : List Byte) (i : Instr) (s t u : State),
    i ∈ [Instr.rxRead, .rxScan, .rxDeliver, .rxWait, .rxResync] →
    exec i s = .next t → exec (.sessionSend channel cmd1 cmd2 cmd3 targetId payload) s = .next u →
    ∃ v, exec (.sessionSend channel cmd1 cmd2 cmd3 targetId payload) t = .next v ∧ exec i u = .next v

/-- R107, R119: what a host command that answers a next state leaves there. Either it has completed: it has left the port
and returned one of its statuses, and if that is an error other than `WriteFailure` it has changed nothing else. Or it is a
SESSION.SEND that reaches its write on a device with no answer listed, and nothing has changed: that such a write hangs is
assumption 1. (RX.START outside `Idle` answers no next state: RxStartResult.) -/
def Obligations.CommandsReturnTheirStatuses : Prop :=
  ∀ (i : Instr) (s t : State), (∃ c, encode i = .command c) → exec i s = .next t →
    (t = s ∧ s.device.writeChoices = [] ∧ s.txFault = false ∧
      ∃ channel cmd1 cmd2 cmd3 targetId payload,
        i = .sessionSend channel cmd1 cmd2 cmd3 targetId payload ∧ payload.length ≤ 1024) ∨
    ∃ r : Response, t.response = some r ∧ t.port = s.port.tail ∧
      (r.status ≠ .ok → r.status ≠ .writeFailure → t = { s with response := some r, port := s.port.tail }) ∧
      match i with
      | .crc16Compute _ _ _ => r.status ∈ [Status.ok, .invalidLength]
      | .frameEncode _ _ _ _ _ _ => r.status ∈ [Status.ok, .payloadTooLarge]
      | .frameDecode _ => r.status ∈ [Status.ok, .incomplete, .corruptHeader, .checksumMismatch]
      | .sessionSend _ _ _ _ _ _ => r.status ∈ [Status.ok, .payloadTooLarge, .writeFailure]
      | _ => r.status = .ok

/-- R96, R98: no stall. From `Scanning`, the engine left to itself is back in `Reading` within `2 * len(RXBUF) + 2` steps,
having delivered, in order, exactly the Frames of RXBUF, with RXBUF trimmed and everything else as it was. That the engine
moves by itself with the tape of turns empty is the model's own rendering (assumption 2). -/
def Obligations.ScanningAlwaysReturnsToReading : Prop :=
  ∀ s : State, s.rxState = .scanning → s.rxFrame = none → s.turns = [] →
    ∃ n ≤ 2 * s.rxbuf.length + 2,
      reaches n s { s with
        rxState := .reading
        rxbuf := (framesIn s.rxbuf).2
        delivered := s.delivered ++ (framesIn s.rxbuf).1 }

/-- R142: a shutdown takes effect only at the next RX.READ. From `Scanning`, `FrameDelivered`, `Corrupt` and `Incomplete`,
and from `Reading` with no device read pending, the latched Frame and the Frames already complete in RXBUF are still
delivered, in that order; then the engine is `Closed` with the cause `Shutdown` and the partial frame abandoned in RXBUF.
The model's own choices in it: with the tape of turns empty the engine moves by itself (assumption 2), and the state says
whether a read is pending (assumption 14). -/
def Obligations.ShutdownDeliversBufferedFramesFirst : Prop :=
  ∀ s : State, s.Inv → s.rxState ≠ .idle → s.rxState ≠ .closed → s.readPending = false → s.turns = [] →
    s.shutdownReq = true →
    ∃ n ≤ 2 * s.rxbuf.length + 4,
      reaches n s { s with
        rxState := .closed
        closeCause := .shutdown
        rxFrame := none
        rxbuf := (framesIn s.rxbuf).2
        delivered := s.delivered ++ s.rxFrame.toList ++ (framesIn s.rxbuf).1 }

/-- R54, R90 to R92: a wire frame that reaches an empty device and is read whole is delivered, field by field, in four
steps: arrival, RX.READ, RX.SCAN, RX.DELIVER. The model's own choices in it: the arrival is a step (assumption 6), the
device's answer is a listed one (assumption 1), after the device's turn the engine moves by itself (assumption 2), and no
read is pending afterwards (assumption 14). -/
def Obligations.WireFrameIsDelivered : Prop :=
  ∀ (channel cmd1 cmd2 cmd3 targetId : Byte) (payload bytes : List Byte) (s : State) (n : Nat) (rest : List ReadChoice)
    (line : List (List Byte)),
    encodeFrame channel cmd1 cmd2 cmd3 targetId payload = some bytes →
    s.rxState = .reading → s.rxbuf = [] → s.rxFrame = none → s.shutdownReq = false → s.turns = [.device] →
    s.line = bytes :: line → s.device.held = [] → s.device.readChoices = .upTo n :: rest → bytes.length ≤ n →
    reaches 4 s { s with
      rxState := .scanning
      delivered := s.delivered ++ [frameOf channel cmd1 cmd2 cmd3 targetId payload]
      readPending := false
      turns := []
      line := line
      device := { s.device with readChoices := rest } }

/-! ## Step, fetch and encodings -/

/-- R45, R52, R60, R105: a step runs the decoded instruction. The agent whose turn it is presents the command at the port,
the step `RX_STATE` selects or the next bytes on the line; where they decode to an instruction, the step is `exec` of it,
with the turn used up and, for the device, the bytes taken from the line. With no turn left the engine moves. The turns are
the model's own rendering of the interleaving (assumption 2). -/
def Obligations.StepRunsDecodedInstruction : Prop :=
  ∀ (s : State) (i : Instr) (ts : List Agent),
    (∀ c cs, s.turns = .host :: ts → s.port = c :: cs → decode (.command c) = .ok i →
      step s = exec i { s with turns := ts }) ∧
    (s.turns = .engine :: ts → decode (.engine s.rxState.code) = .ok i → step s = exec i { s with turns := ts }) ∧
    (s.turns = [] → decode (.engine s.rxState.code) = .ok i → step s = exec i s) ∧
    (∀ b bs, s.turns = .device :: ts → s.line = b :: bs → decode (.line b) = .ok i →
      step s = exec i { s with turns := ts, line := bs })

/-- R95, R126: in `Idle` and in `Closed` the engine does nothing, and in `Reading` it rests while a device read has not
returned, also with a shutdown requested while it was pending: that the read is noted as pending and a listed wait is used
up is all that happens. That a read does not return where no answer or a wait is listed is assumption 1, that the engine
moves by itself with the tape of turns empty is assumption 2, and the pending read is the model's own field
(assumption 14). -/
def Obligations.EngineRestsWithoutAStep : Prop :=
  ∀ s : State, s.turns = [] →
    (s.rxState = .idle ∨ s.rxState = .closed ∨
      (s.rxState = .reading ∧ s.readPending = true ∧ s.device.readChoices = []) → step s = .next s) ∧
    (s.rxState = .reading → s.shutdownReq = false ∨ s.readPending = true →
      (s.device.readChoices = [] → step s = .next { s with readPending := true }) ∧
      (∀ rest, s.device.readChoices = .notYet :: rest →
        step s = .next { s with readPending := true, device := { s.device with readChoices := rest } }))

/-- R95, R145: with no input pending, the states whose step leaves all as it is, but for the model's own note of a pending
read and its list of the device's choices, are exactly the quiescent ones. The model's own choices in it: the listed answers
and waits (assumption 1), the empty tape of turns (assumption 2), and the pending read (assumption 14). -/
def Obligations.QuiescentStatesAreThoseAtRest : Prop :=
  ∀ s : State, s.turns = [] → s.port = [] →
    ((∃ p choices, step s = .next { s with readPending := p, device := { s.device with readChoices := choices } }) ↔
      s.Quiescent)

/-- R23, R104: `run_receive_loop()` returns only from `Closed`, and then reports `Shutdown` or `DeviceClosed`. -/
def Obligations.ReceiveLoopReportsWhyItClosed : Prop :=
  ∀ (s : State) (c : CloseCause), s.Inv → s.loopResult = some c →
    s.rxState = .closed ∧ s.closeCause = c ∧ (c = .shutdown ∨ c = .deviceClosed)

/-- R59: `OP` codes 0x0 and 0x8 to 0xF select no command, and a step that presents one is refused. -/
def Obligations.ReservedOpIsRefused : Prop :=
  ∀ (c : Command) (s : State) (ts : List Agent) (cs : List Command), c.op = 0 ∨ 8 ≤ c.op.toNat →
    decode (.command c) = .error (.reservedOp c.op) ∧
    (s.turns = .host :: ts → s.port = c :: cs → step s = .refused (.reservedOp c.op))

/-- R36, R58 (a): any run of bytes on the line, one frame or not, reaches the device whole and in order, behind the bytes
it holds; nothing else of the machine changes. That arrival is a step is the model's own rendering (assumption 6). -/
def Obligations.LineBytesReachTheDevice : Prop :=
  ∀ (s : State) (ts : List Agent) (b : List Byte) (bs : List (List Byte)), s.turns = .device :: ts → s.line = b :: bs →
    step s = .next { s with turns := ts, line := bs, device := { s.device with held := s.device.held ++ b } }

/-- R54: the meaning of FRAME: the preamble, header, payload and CRC bytes of the frame reach the device, in offset order,
behind the bytes it holds. That the frame's own step is its arrival is the model's own rendering (assumption 6). -/
def Obligations.FrameReachesTheDevice : Prop :=
  ∀ (channel cmd1 cmd2 cmd3 targetId : Byte) (payload : List Byte) (crc : Half) (s : State),
    exec (.frame channel cmd1 cmd2 cmd3 targetId payload crc) s =
      .next { s with
        device := { s.device with
          held := s.device.held ++ ([0xFF, 0x55, 0xAA, channel, cmd1, cmd2, cmd3, targetId,
            BitVec.ofNat 8 (payload.length / 256), BitVec.ofNat 8 payload.length] ++ payload ++
            [BitVec.ofNat 8 (crc.toNat / 256), BitVec.ofNat 8 crc.toNat]) } }

/-- R52: the host commands, by `OP` code, with the operand latches each reads; the other codes select none. -/
def Obligations.HostCommandCodes : Prop :=
  ∀ l : Latches,
    decode (.command ⟨0x1, l⟩) = .ok (.crc16Compute l.data l.length l.seed) ∧
    decode (.command ⟨0x2, l⟩) = .ok (.frameEncode l.channel l.cmd1 l.cmd2 l.cmd3 l.targetId l.payload) ∧
    decode (.command ⟨0x3, l⟩) = .ok (.frameDecode l.buffer) ∧
    decode (.command ⟨0x4, l⟩) = .ok (.sessionSend l.channel l.cmd1 l.cmd2 l.cmd3 l.targetId l.payload) ∧
    decode (.command ⟨0x5, l⟩) = .ok .rxStart ∧ decode (.command ⟨0x6, l⟩) = .ok .sessionShutdown ∧
    decode (.command ⟨0x7, l⟩) = .ok .sessionReset ∧
    ∀ op : BitVec 4, op = 0 ∨ 8 ≤ op.toNat → decode (.command ⟨op, l⟩) = .error (.reservedOp op)

/-- R60: the engine step that each `RX_STATE` selects; `Idle` and `Closed` select none. -/
def Obligations.RxStateSelectsTheStep : Prop :=
  decode (.engine RxState.reading.code) = .ok .rxRead ∧ decode (.engine RxState.scanning.code) = .ok .rxScan ∧
  decode (.engine RxState.frameDelivered.code) = .ok .rxDeliver ∧
  decode (.engine RxState.incomplete.code) = .ok .rxWait ∧ decode (.engine RxState.corrupt.code) = .ok .rxResync ∧
  decode (.engine RxState.idle.code) = .error (.noStep 0) ∧ decode (.engine RxState.closed.code) = .error (.noStep 6)

/-- R18, R20, R23, R107: what the host reads of the state, by the tabled code numbers of the registers and statuses; the
code points 7 of `RX_STATE` and 3 of `CLOSE_CAUSE` are never read, and the status codes are distinct. -/
def Obligations.HostReadsTabledCodes : Prop :=
  (∀ s : State,
    s.hostStatus.shutdownReq = s.shutdownReq ∧ s.hostStatus.txFault = s.txFault ∧
    s.hostStatus.rxState.toNat =
      (match s.rxState with
       | .idle => 0 | .reading => 1 | .scanning => 2 | .frameDelivered => 3 | .incomplete => 4 | .corrupt => 5
       | .closed => 6) ∧
    s.hostStatus.closeCause.toNat = (match s.closeCause with | .none => 0 | .shutdown => 1 | .deviceClosed => 2)) ∧
  [Status.ok, .invalidLength, .payloadTooLarge, .incomplete, .corruptHeader, .checksumMismatch, .writeFailure,
    .deviceClosed].map (fun x => x.code.toNat) = [0, 1, 2, 3, 4, 5, 6, 7]

/-- R52, R54, R60: a few words of spec/opcode_table.json decode to the instructions they stand for, and so does the
16-byte frame of the end-to-end scenario, written out byte by byte. How a table word is read (3 bits as an `RX_STATE` code,
4 bits as an `OP` code, 80 bits as the front of a frame in either byte order, with every operand, payload byte and CRC byte
above the word zero) is the model's own choice (assumption 4). -/
def Obligations.TableWordsDecode : Prop :=
  decodeTableWord 4 0x1 = some (.crc16Compute [] 0 0) ∧ decodeTableWord 4 0x7 = some .sessionReset ∧
  decodeTableWord 3 0x5 = some .rxResync ∧
  decodeTableWord 80 0xFF55AA00000000000000 = some (.frame 0 0 0 0 0 [] 0) ∧
  decode (.line [0xFF, 0x55, 0xAA, 0x00, 0x01, 0x02, 0x01, 0x05, 0x00, 0x04, 0x12, 0x34, 0x56, 0x78, 0xAA, 0x7C]) =
    .ok (.frame 0x00 0x01 0x02 0x01 0x05 [0x12, 0x34, 0x56, 0x78] 0xAA7C)

/-- R52, R54, R55, R60: decode and encode agree on every well-formed instruction, with every operand at every value. -/
def Obligations.DecodeOfEncodeIsIdentity : Prop :=
  ∀ i : Instr, WellFormed i = true → decode (encode i) = .ok i

/-- R54, R55, R57: the other direction for wire frames: bytes that decode to a frame are that frame's encoding, so no bit
of a frame is dropped. -/
def Obligations.EncodeOfDecodedFrameIsIdentity : Prop :=
  ∀ (b : List Byte) (i : Instr), decode (.line b) = .ok i → encode i = .line b

/-! ## A shutdown while a device read is pending -/

/-- R126, R142: in `Reading` with a device read pending, a shutdown has no effect before the read returns, and none at all
if it never returns. When it returns to a pending shutdown, the engine is `Closed` with the cause `Shutdown`. The model's
own choices in it: the listed answers (assumption 1), the empty tape of turns (assumption 2), the pending read, and that
the answer is then not taken (assumption 14). -/
def Obligations.ShutdownWaitsForPendingRead : Prop :=
  ∀ s : State, s.rxState = .reading → s.readPending = true → s.turns = [] →
    (s.device.readChoices = [] → ∀ n, reaches n s s) ∧
    (s.shutdownReq = true → ∀ k c rest, s.device.readChoices = List.replicate k .notYet ++ c :: rest → c ≠ .notYet →
      (∀ j ≤ k, reaches j s { s with device := { s.device with readChoices := s.device.readChoices.drop j } }) ∧
      reaches (k + 1) s { s with
        rxState := .closed
        closeCause := .shutdown
        readPending := false
        device := { s.device with readChoices := c :: rest } })
end

