-- ==== Sys2Proof/Laws/Codec.lean ====
section
/-! SUPPORT. The small lemmas of the byte-level definitions: 16-bit fields, frame layout, marker search, and one
inversion lemma for the decoder. -/

namespace Sys2Proof.Machine

/-! 16-bit fields (R39, R55). -/

@[simp] theorem hiByte_be16 (hi lo : Byte) : hiByte (be16 hi lo) = hi := by
  apply BitVec.eq_of_getLsbD_eq
  intro i hi'
  have h : i + 8 < 16 := by omega
  simp [hiByte, be16, hi', h, Nat.add_comm 8 i]

@[simp] theorem loByte_be16 (hi lo : Byte) : loByte (be16 hi lo) = lo := by
  apply BitVec.eq_of_getLsbD_eq
  intro i hi'
  simp [loByte, be16, hi']

@[simp] theorem be16_hiByte_loByte (v : Half) : be16 (hiByte v) (loByte v) = v := by
  apply BitVec.eq_of_getLsbD_eq
  intro i hi
  simp only [be16, hiByte, loByte, BitVec.getLsbD_or, BitVec.getLsbD_shiftLeft, BitVec.getLsbD_setWidth,
    BitVec.getLsbD_ushiftRight]
  by_cases h : i < 8
  · simp [h, hi]
  · simp [h, hi, show i - 8 < 8 by omega, show 8 + (i - 8) = i by omega,
      show i - 8 < 16 by omega]

/-! The layout of a frame (R54, R73). -/

@[simp] theorem frameBody_length (c c1 c2 c3 t : Byte) (p : List Byte) : (frameBody c c1 c2 c3 t p).length = 7 + p.length := by
  simp [frameBody]; omega

@[simp] theorem frameBytes_length (c c1 c2 c3 t : Byte) (p : List Byte) (crc : Half) :
    (frameBytes c c1 c2 c3 t p crc).length = 12 + p.length := by
  simp [frameBytes]; omega

/-- A frame's bytes, front first. -/
theorem frameBytes_eq (c c1 c2 c3 t : Byte) (p : List Byte) (crc : Half) :
    frameBytes c c1 c2 c3 t p crc =
      [Config.sync, Config.start1, Config.start2, c, c1, c2, c3, t, hiByte (BitVec.ofNat 16 p.length),
        loByte (BitVec.ofNat 16 p.length)] ++ (p ++ [hiByte crc, loByte crc]) := by
  simp [frameBytes, frameBody]

/-- FRAME.ENCODE succeeds exactly on payloads of at most 1024 bytes (R72). -/
theorem encodeFrame_eq_some {c c1 c2 c3 t : Byte} {p bytes : List Byte} :
    encodeFrame c c1 c2 c3 t p = some bytes ↔
      p.length ≤ 1024 ∧ bytes = frameBytes c c1 c2 c3 t p (bodyCrc (frameBody c c1 c2 c3 t p)) := by
  unfold encodeFrame
  split <;> rename_i h
  · exact ⟨fun e => (nomatch e), fun e => absurd e.1 (Nat.not_le_of_lt h)⟩
  · exact ⟨fun e => ⟨Nat.le_of_not_lt h, (Option.some.inj e).symm⟩, fun e => by rw [e.2]⟩

/-! Marker search (R77). -/

/-- A marker stands at index `i`. -/
abbrev MarkerAt (b : List Byte) (i : Nat) : Prop := (b.drop i).take 3 = Config.preamble

theorem markerAt_lt {b : List Byte} {i : Nat} (h : MarkerAt b i) : i + 2 < b.length := by
  have := congrArg List.length h
  simp at this
  omega

/-- The index the search finds is the least one at which a marker stands (R77). -/
theorem findMarker_eq_some {b : List Byte} {p : Nat} :
    findMarker b = some p ↔ MarkerAt b p ∧ ∀ i < p, ¬ MarkerAt b i := by
  induction b generalizing p with
  | nil =>
    refine ⟨fun h => (nomatch h), fun h => ?_⟩
    have := markerAt_lt h.1
    simp at this
  | cons x rest ih =>
    rw [findMarker]
    split <;> rename_i h
    · refine ⟨fun e => ?_, fun e => ?_⟩
      · cases e
        exact ⟨h, fun i hi => absurd hi (Nat.not_lt_zero _)⟩
      · cases p with
        | zero => rfl
        | succ p => exact absurd h (e.2 0 (Nat.succ_pos _))
    · refine ⟨fun e => ?_, fun e => ?_⟩
      · obtain ⟨q, hq, rfl⟩ := Option.map_eq_some_iff.mp e
        have hq' := ih.mp hq
        refine ⟨hq'.1, fun i hi => ?_⟩
        cases i with
        | zero => exact h
        | succ i => exact hq'.2 i (Nat.lt_of_succ_lt_succ hi)
      · cases p with
        | zero => exact absurd e.1 h
        | succ p =>
          have hp : findMarker rest = some p :=
            ih.mpr ⟨e.1, fun i hi => e.2 (i + 1) (Nat.succ_lt_succ hi)⟩
          rw [hp]
          rfl

/-- The search fails exactly where no marker stands anywhere (R78). -/
theorem findMarker_eq_none {b : List Byte} : findMarker b = none ↔ ∀ i, ¬ MarkerAt b i := by
  induction b with
  | nil =>
    refine ⟨fun _ i h => ?_, fun _ => rfl⟩
    have := markerAt_lt h
    simp at this
  | cons x rest ih =>
    rw [findMarker]
    split <;> rename_i h
    · exact ⟨fun e => (nomatch e), fun e => absurd h (e 0)⟩
    · rw [Option.map_eq_none_iff, ih]
      refine ⟨fun e i => ?_, fun e i => e (i + 1)⟩
      cases i with
      | zero => exact h
      | succ i => exact e i

/-- How many trailing bytes are kept: at most 2, and no more than there are (R78). -/
theorem keptSuffix_le (b : List Byte) : keptSuffix b ≤ b.length ∧ keptSuffix b ≤ 2 := by
  unfold keptSuffix
  dsimp only
  split <;> rename_i h
  · exact ⟨h.1, Nat.le_refl _⟩
  · split <;> rename_i h'
    · exact ⟨h'.1, by omega⟩
    · exact ⟨Nat.zero_le _, by omega⟩

/-! The decoder (R84). -/

/-- Everything FRAME.DECODE can answer, each outcome with the tests that lead to it, in the order of R84. -/
theorem decodeFrame_cases (b : List Byte) :
    (findMarker b = none ∧ decodeFrame b = ⟨.incomplete, b.length - keptSuffix b, none⟩) ∨
    ∃ p, findMarker b = some p ∧
      ((b.length - p < 10 ∧ decodeFrame b = ⟨.incomplete, p, none⟩) ∨
       (10 ≤ b.length - p ∧ 1024 < (halfAt b (p + 8)).toNat ∧ decodeFrame b = ⟨.corruptHeader, p + 1, none⟩) ∨
       (10 ≤ b.length - p ∧ (halfAt b (p + 8)).toNat ≤ 1024 ∧ b.length - p < 12 + (halfAt b (p + 8)).toNat ∧
         decodeFrame b = ⟨.incomplete, p, none⟩) ∨
       (12 + (halfAt b (p + 8)).toNat ≤ b.length - p ∧ (halfAt b (p + 8)).toNat ≤ 1024 ∧
         bodyCrc (slice b (p + 3) (7 + (halfAt b (p + 8)).toNat)) ≠ halfAt b (p + 10 + (halfAt b (p + 8)).toNat) ∧
         decodeFrame b = ⟨.checksumMismatch, p + 1, none⟩) ∨
       (12 + (halfAt b (p + 8)).toNat ≤ b.length - p ∧ (halfAt b (p + 8)).toNat ≤ 1024 ∧
         bodyCrc (slice b (p + 3) (7 + (halfAt b (p + 8)).toNat)) = halfAt b (p + 10 + (halfAt b (p + 8)).toNat) ∧
         decodeFrame b =
           ⟨.ok, p + 12 + (halfAt b (p + 8)).toNat, some (frameAt b p (halfAt b (p + 8)))⟩)) := by
  cases hm : findMarker b with
  | none => exact .inl ⟨rfl, by rw [decodeFrame, hm]⟩
  | some p =>
    refine .inr ⟨p, rfl, ?_⟩
    unfold decodeFrame
    rw [hm]
    dsimp only
    split <;> rename_i h1
    · exact .inl ⟨h1, rfl⟩
    · split <;> rename_i h2
      · exact .inr (.inl ⟨Nat.le_of_not_lt h1, h2, rfl⟩)
      · split <;> rename_i h3
        · exact .inr (.inr (.inl ⟨Nat.le_of_not_lt h1, Nat.le_of_not_lt h2, h3, rfl⟩))
        · split <;> rename_i h4
          · exact .inr (.inr (.inr (.inl ⟨Nat.le_of_not_lt h3, Nat.le_of_not_lt h2, h4, rfl⟩)))
          · exact .inr (.inr (.inr (.inr ⟨Nat.le_of_not_lt h3, Nat.le_of_not_lt h2, not_not.mp h4, rfl⟩)))

end Sys2Proof.Machine
end

