-- ==== Sys2Proof/Laws/Crc16.lean ====
section
/-! SUPPORT. The small lemmas of the CRC definitions: linearity of one step and of one byte, and how the whole
computation folds over the bytes. -/

namespace Sys2Proof.Machine

/-- One step is linear over XOR (R68: the only operations are XOR and shift). -/
theorem crcBit_xor (a b : Half) : crcBit (a ^^^ b) = crcBit a ^^^ crcBit b := by
  unfold crcBit
  rw [BitVec.getLsbD_xor, BitVec.shiftLeft_xor_distrib]
  have h : Config.poly ^^^ (Config.poly ^^^ b <<< 1) = b <<< 1 := by
    rw [← BitVec.xor_assoc, BitVec.xor_self, BitVec.zero_xor]
  cases a.getLsbD 15 <;> cases b.getLsbD 15
  · rfl
  · exact BitVec.xor_assoc _ _ _
  · exact (BitVec.xor_assoc _ _ _).trans
      ((congrArg _ (BitVec.xor_comm _ _)).trans (BitVec.xor_assoc _ _ _).symm)
  · refine ((BitVec.xor_assoc _ _ _).trans (congrArg (a <<< 1 ^^^ ·) ?_)).symm
    exact (congrArg _ (BitVec.xor_comm _ _)).trans h

@[simp] theorem crcBit_zero : crcBit 0 = 0 := by decide

/-- Repeated steps are linear over XOR. -/
theorem repeat_crcBit_xor (n : Nat) (a b : Half) :
    Nat.repeat crcBit n (a ^^^ b) = Nat.repeat crcBit n a ^^^ Nat.repeat crcBit n b := by
  induction n with
  | zero => rfl
  | succ n ih => exact (congrArg crcBit ih).trans (crcBit_xor _ _)

/-- The computation over no byte is the seed (R63). -/
@[simp] theorem crc16_zero (d : List Byte) (s : Half) : crc16 d 0 s = s := rfl

@[simp] theorem crc16_nil (n : Nat) (s : Half) : crc16 [] n s = s := by simp [crc16]

/-- The first byte is processed first (R63). -/
@[simp] theorem crc16_cons (b : Byte) (d : List Byte) (n : Nat) (s : Half) :
    crc16 (b :: d) (n + 1) s = crc16 d n (crcByte s b) := rfl

/-- Over all of a sequence the computation is a fold (R63). -/
theorem crc16_length (d : List Byte) (s : Half) : crc16 d d.length s = d.foldl crcByte s := by
  rw [crc16, List.take_length]

end Sys2Proof.Machine
end

