-- ==== Sys2Proof/Laws/State.lean ====
section
/-! SUPPORT. One lemma per field of the state per named update, each true by rfl, so that no proof unfolds an update. -/

namespace Sys2Proof.Machine

/-! Arrival of bytes at the device. -/

@[simp] theorem arrive_rxState (s : State) (bytes : List Byte) :
    (s.arrive bytes).rxState = s.rxState := rfl
@[simp] theorem arrive_rxbuf (s : State) (bytes : List Byte) :
    (s.arrive bytes).rxbuf = s.rxbuf := rfl
@[simp] theorem arrive_rxFrame (s : State) (bytes : List Byte) :
    (s.arrive bytes).rxFrame = s.rxFrame := rfl
@[simp] theorem arrive_shutdownReq (s : State) (bytes : List Byte) :
    (s.arrive bytes).shutdownReq = s.shutdownReq := rfl
@[simp] theorem arrive_closeCause (s : State) (bytes : List Byte) :
    (s.arrive bytes).closeCause = s.closeCause := rfl
@[simp] theorem arrive_txFault (s : State) (bytes : List Byte) :
    (s.arrive bytes).txFault = s.txFault := rfl
@[simp] theorem arrive_delivered (s : State) (bytes : List Byte) :
    (s.arrive bytes).delivered = s.delivered := rfl
@[simp] theorem arrive_txline (s : State) (bytes : List Byte) :
    (s.arrive bytes).txline = s.txline := rfl
@[simp] theorem arrive_readPending (s : State) (bytes : List Byte) :
    (s.arrive bytes).readPending = s.readPending := rfl
@[simp] theorem arrive_response (s : State) (bytes : List Byte) :
    (s.arrive bytes).response = s.response := rfl
@[simp] theorem arrive_port (s : State) (bytes : List Byte) :
    (s.arrive bytes).port = s.port := rfl
@[simp] theorem arrive_turns (s : State) (bytes : List Byte) :
    (s.arrive bytes).turns = s.turns := rfl
@[simp] theorem arrive_line (s : State) (bytes : List Byte) :
    (s.arrive bytes).line = s.line := rfl
@[simp] theorem arrive_device (s : State) (bytes : List Byte) :
    (s.arrive bytes).device = { s.device with held := s.device.held ++ bytes } := rfl

/-! Bytes accepted by the device. -/

@[simp] theorem transmit_rxState (s : State) (bytes : List Byte) (d : Device) :
    (s.transmit bytes d).rxState = s.rxState := rfl
@[simp] theorem transmit_rxbuf (s : State) (bytes : List Byte) (d : Device) :
    (s.transmit bytes d).rxbuf = s.rxbuf := rfl
@[simp] theorem transmit_rxFrame (s : State) (bytes : List Byte) (d : Device) :
    (s.transmit bytes d).rxFrame = s.rxFrame := rfl
@[simp] theorem transmit_shutdownReq (s : State) (bytes : List Byte) (d : Device) :
    (s.transmit bytes d).shutdownReq = s.shutdownReq := rfl
@[simp] theorem transmit_closeCause (s : State) (bytes : List Byte) (d : Device) :
    (s.transmit bytes d).closeCause = s.closeCause := rfl
@[simp] theorem transmit_txFault (s : State) (bytes : List Byte) (d : Device) :
    (s.transmit bytes d).txFault = s.txFault := rfl
@[simp] theorem transmit_delivered (s : State) (bytes : List Byte) (d : Device) :
    (s.transmit bytes d).delivered = s.delivered := rfl
@[simp] theorem transmit_txline (s : State) (bytes : List Byte) (d : Device) :
    (s.transmit bytes d).txline = s.txline ++ bytes := rfl
@[simp] theorem transmit_readPending (s : State) (bytes : List Byte) (d : Device) :
    (s.transmit bytes d).readPending = s.readPending := rfl
@[simp] theorem transmit_response (s : State) (bytes : List Byte) (d : Device) :
    (s.transmit bytes d).response = s.response := rfl
@[simp] theorem transmit_port (s : State) (bytes : List Byte) (d : Device) :
    (s.transmit bytes d).port = s.port := rfl
@[simp] theorem transmit_turns (s : State) (bytes : List Byte) (d : Device) :
    (s.transmit bytes d).turns = s.turns := rfl
@[simp] theorem transmit_line (s : State) (bytes : List Byte) (d : Device) :
    (s.transmit bytes d).line = s.line := rfl
@[simp] theorem transmit_device (s : State) (bytes : List Byte) (d : Device) :
    (s.transmit bytes d).device = d := rfl

/-! Hand-over of the latched Frame. -/

@[simp] theorem deliver_rxState (s : State) :
    s.deliver.rxState = s.rxState := rfl
@[simp] theorem deliver_rxbuf (s : State) :
    s.deliver.rxbuf = s.rxbuf := rfl
@[simp] theorem deliver_rxFrame (s : State) :
    s.deliver.rxFrame = none := rfl
@[simp] theorem deliver_shutdownReq (s : State) :
    s.deliver.shutdownReq = s.shutdownReq := rfl
@[simp] theorem deliver_closeCause (s : State) :
    s.deliver.closeCause = s.closeCause := rfl
@[simp] theorem deliver_txFault (s : State) :
    s.deliver.txFault = s.txFault := rfl
@[simp] theorem deliver_delivered (s : State) :
    s.deliver.delivered = s.delivered ++ s.rxFrame.toList := rfl
@[simp] theorem deliver_txline (s : State) :
    s.deliver.txline = s.txline := rfl
@[simp] theorem deliver_readPending (s : State) :
    s.deliver.readPending = s.readPending := rfl
@[simp] theorem deliver_response (s : State) :
    s.deliver.response = s.response := rfl
@[simp] theorem deliver_port (s : State) :
    s.deliver.port = s.port := rfl
@[simp] theorem deliver_turns (s : State) :
    s.deliver.turns = s.turns := rfl
@[simp] theorem deliver_line (s : State) :
    s.deliver.line = s.line := rfl
@[simp] theorem deliver_device (s : State) :
    s.deliver.device = s.device := rfl

/-! Completion of a host command. -/

@[simp] theorem complete_rxState (s : State) (r : Response) :
    (s.complete r).rxState = s.rxState := rfl
@[simp] theorem complete_rxbuf (s : State) (r : Response) :
    (s.complete r).rxbuf = s.rxbuf := rfl
@[simp] theorem complete_rxFrame (s : State) (r : Response) :
    (s.complete r).rxFrame = s.rxFrame := rfl
@[simp] theorem complete_shutdownReq (s : State) (r : Response) :
    (s.complete r).shutdownReq = s.shutdownReq := rfl
@[simp] theorem complete_closeCause (s : State) (r : Response) :
    (s.complete r).closeCause = s.closeCause := rfl
@[simp] theorem complete_txFault (s : State) (r : Response) :
    (s.complete r).txFault = s.txFault := rfl
@[simp] theorem complete_delivered (s : State) (r : Response) :
    (s.complete r).delivered = s.delivered := rfl
@[simp] theorem complete_txline (s : State) (r : Response) :
    (s.complete r).txline = s.txline := rfl
@[simp] theorem complete_readPending (s : State) (r : Response) :
    (s.complete r).readPending = s.readPending := rfl
@[simp] theorem complete_response (s : State) (r : Response) :
    (s.complete r).response = some r := rfl
@[simp] theorem complete_port (s : State) (r : Response) :
    (s.complete r).port = s.port.tail := rfl
@[simp] theorem complete_turns (s : State) (r : Response) :
    (s.complete r).turns = s.turns := rfl
@[simp] theorem complete_line (s : State) (r : Response) :
    (s.complete r).line = s.line := rfl
@[simp] theorem complete_device (s : State) (r : Response) :
    (s.complete r).device = s.device := rfl

/-! Closing of the engine. -/

@[simp] theorem close_rxState (s : State) (c : CloseCause) :
    (s.close c).rxState = .closed := rfl
@[simp] theorem close_rxbuf (s : State) (c : CloseCause) :
    (s.close c).rxbuf = s.rxbuf := rfl
@[simp] theorem close_rxFrame (s : State) (c : CloseCause) :
    (s.close c).rxFrame = s.rxFrame := rfl
@[simp] theorem close_shutdownReq (s : State) (c : CloseCause) :
    (s.close c).shutdownReq = s.shutdownReq := rfl
@[simp] theorem close_closeCause (s : State) (c : CloseCause) :
    (s.close c).closeCause = c := rfl
@[simp] theorem close_txFault (s : State) (c : CloseCause) :
    (s.close c).txFault = s.txFault := rfl
@[simp] theorem close_delivered (s : State) (c : CloseCause) :
    (s.close c).delivered = s.delivered := rfl
@[simp] theorem close_txline (s : State) (c : CloseCause) :
    (s.close c).txline = s.txline := rfl
@[simp] theorem close_readPending (s : State) (c : CloseCause) :
    (s.close c).readPending = false := rfl
@[simp] theorem close_response (s : State) (c : CloseCause) :
    (s.close c).response = s.response := rfl
@[simp] theorem close_port (s : State) (c : CloseCause) :
    (s.close c).port = s.port := rfl
@[simp] theorem close_turns (s : State) (c : CloseCause) :
    (s.close c).turns = s.turns := rfl
@[simp] theorem close_line (s : State) (c : CloseCause) :
    (s.close c).line = s.line := rfl
@[simp] theorem close_device (s : State) (c : CloseCause) :
    (s.close c).device = s.device := rfl

/-! The session reset. -/

@[simp] theorem sessionReset_rxState (s : State) :
    s.sessionReset.rxState = .idle := rfl
@[simp] theorem sessionReset_rxbuf (s : State) :
    s.sessionReset.rxbuf = [] := rfl
@[simp] theorem sessionReset_rxFrame (s : State) :
    s.sessionReset.rxFrame = none := rfl
@[simp] theorem sessionReset_shutdownReq (s : State) :
    s.sessionReset.shutdownReq = false := rfl
@[simp] theorem sessionReset_closeCause (s : State) :
    s.sessionReset.closeCause = .none := rfl
@[simp] theorem sessionReset_txFault (s : State) :
    s.sessionReset.txFault = false := rfl
@[simp] theorem sessionReset_delivered (s : State) :
    s.sessionReset.delivered = s.delivered := rfl
@[simp] theorem sessionReset_txline (s : State) :
    s.sessionReset.txline = s.txline := rfl
@[simp] theorem sessionReset_readPending (s : State) :
    s.sessionReset.readPending = false := rfl
@[simp] theorem sessionReset_response (s : State) :
    s.sessionReset.response = s.response := rfl
@[simp] theorem sessionReset_port (s : State) :
    s.sessionReset.port = s.port := rfl
@[simp] theorem sessionReset_turns (s : State) :
    s.sessionReset.turns = s.turns := rfl
@[simp] theorem sessionReset_line (s : State) :
    s.sessionReset.line = s.line := rfl
@[simp] theorem sessionReset_device (s : State) :
    s.sessionReset.device = s.device := rfl

/-! A turn used up. -/

@[simp] theorem takeTurn_rxState (s : State) :
    s.takeTurn.rxState = s.rxState := rfl
@[simp] theorem takeTurn_rxbuf (s : State) :
    s.takeTurn.rxbuf = s.rxbuf := rfl
@[simp] theorem takeTurn_rxFrame (s : State) :
    s.takeTurn.rxFrame = s.rxFrame := rfl
@[simp] theorem takeTurn_shutdownReq (s : State) :
    s.takeTurn.shutdownReq = s.shutdownReq := rfl
@[simp] theorem takeTurn_closeCause (s : State) :
    s.takeTurn.closeCause = s.closeCause := rfl
@[simp] theorem takeTurn_txFault (s : State) :
    s.takeTurn.txFault = s.txFault := rfl
@[simp] theorem takeTurn_delivered (s : State) :
    s.takeTurn.delivered = s.delivered := rfl
@[simp] theorem takeTurn_txline (s : State) :
    s.takeTurn.txline = s.txline := rfl
@[simp] theorem takeTurn_readPending (s : State) :
    s.takeTurn.readPending = s.readPending := rfl
@[simp] theorem takeTurn_response (s : State) :
    s.takeTurn.response = s.response := rfl
@[simp] theorem takeTurn_port (s : State) :
    s.takeTurn.port = s.port := rfl
@[simp] theorem takeTurn_turns (s : State) :
    s.takeTurn.turns = s.turns.tail := rfl
@[simp] theorem takeTurn_line (s : State) :
    s.takeTurn.line = if s.mover = .device then s.line.tail else s.line := rfl
@[simp] theorem takeTurn_device (s : State) :
    s.takeTurn.device = s.device := rfl

end Sys2Proof.Machine
end

