-- ==== Sys2Proof/Laws/Ops.lean ====
section
/-! SUPPORT. For each shared operation one lemma that says once everything it can do; proofs cite these instead of
unfolding the operation. -/

namespace Sys2Proof.Machine

/-! RXBUF. -/

/-- The capacity is at least the longest frame (R9). -/
theorem rxCap_ge : 1036 ≤ Config.rxCap := Nat.le_add_left _ _

/-- `DevRead` never asks for more than the free space, so an append keeps the capacity (R35). -/
theorem append_wf {m : Memory} {s : List Byte} (hm : m.wf) (hs : s.length ≤ m.free) : (m.append s).wf := by
  simp only [Memory.wf, Memory.free, Memory.append, List.length_append] at *
  omega

theorem dropFront_wf {m : Memory} (k : Nat) (hm : m.wf) : (m.dropFront k).wf := by
  simp only [Memory.wf, Memory.dropFront, List.length_drop] at *
  omega

theorem clear_wf (m : Memory) : m.clear.wf := Nat.zero_le _

theorem reset_rxbuf_wf : Memory.wf State.reset.rxbuf := Nat.zero_le _

/-- A byte of RXBUF after an append: the old bytes stand where they stood (R35). -/
theorem read_append (m : Memory) (s : List Byte) (i : Nat) :
    (m.append s).read i = if i < m.length then m.read i else s[i - m.length]? := by
  simp only [Memory.read, Memory.append, List.getElem?_append]

/-- The byte at index `i` after `k` bytes are dropped was at index `k + i` (R35). -/
theorem read_dropFront (m : Memory) (k i : Nat) : (m.dropFront k).read i = m.read (k + i) := by
  simp only [Memory.read, Memory.dropFront, List.getElem?_drop]

/-! The device. -/

/-- Everything a device read can do: not return, answer `Closed`, or give the next bytes it holds, at most as many as
were asked for (R36). -/
theorem read_cases (d : Device) (max : Nat) :
    (d.returns = false ∧ d.read max = (none, { d with readChoices := d.readChoices.tail })) ∨
    (∃ rest, d.returns = true ∧ d.readChoices = .closed :: rest ∧
      d.read max = (some .closed, { d with readChoices := rest })) ∨
    (∃ n rest, d.returns = true ∧ d.readChoices = .upTo n :: rest ∧
      d.read max = (some (.bytes (d.held.take (min n max))),
        { d with held := d.held.drop (min n max), readChoices := rest })) := by
  obtain ⟨held, reads, writes⟩ := d
  match reads with
  | [] => exact .inl ⟨rfl, rfl⟩
  | .notYet :: rest => exact .inl ⟨rfl, rfl⟩
  | .closed :: rest => exact .inr (.inl ⟨rest, rfl, rfl, rfl⟩)
  | .upTo n :: rest => exact .inr (.inr ⟨n, rest, rfl, rfl, rfl⟩)

/-- The bytes a read returns fit in what was asked for, and are the front of what the device held (R36, R46). -/
theorem read_bytes {d d' : Device} {max : Nat} {bs : List Byte} (h : d.read max = (some (.bytes bs), d')) :
    bs.length ≤ max ∧ bs ++ d'.held = d.held ∧ d'.writeChoices = d.writeChoices := by
  rcases read_cases d max with ⟨_, h'⟩ | ⟨_, _, _, h'⟩ | ⟨n, rest, _, _, h'⟩ <;> rw [h'] at h
  · cases h
  · cases h
  · cases h
    refine ⟨?_, List.take_append_drop _ _, rfl⟩
    simp only [List.length_take]
    omega

/-- A device that returns no read has no choice left or has chosen to wait. -/
theorem returns_eq_false {d : Device} :
    d.returns = false ↔ d.readChoices = [] ∨ ∃ rest, d.readChoices = .notYet :: rest := by
  unfold Device.returns
  split <;> simp_all

/-- A device that returns a read. -/
theorem returns_of_cons {d : Device} {c : ReadChoice} {rest : List ReadChoice} (h : d.readChoices = c :: rest)
    (hc : c ≠ .notYet) : d.returns = true := by
  unfold Device.returns
  rw [h]
  cases c <;> first | rfl | exact absurd rfl hc

/-- Everything a device write can do: hang, or accept at most as many bytes as it was given (R37). -/
theorem write_cases (d : Device) (s : List Byte) :
    (d.writeChoices = [] ∧ d.write s = none) ∨
    (∃ n rest, d.writeChoices = n :: rest ∧
      d.write s = some (min n s.length, { d with writeChoices := rest })) := by
  unfold Device.write
  match d.writeChoices with
  | [] => exact .inl ⟨rfl, rfl⟩
  | n :: rest => exact .inr ⟨n, rest, rfl, rfl⟩

/-! The bodies of the operations. -/

/-- Everything the write of a SESSION.SEND can do (R37, R100). -/
theorem writeFrame_cases (bytes : List Byte) (s : State) :
    (s.device.writeChoices = [] ∧ writeFrame bytes s = s) ∨
    (∃ n rest, s.device.writeChoices = n :: rest ∧ n < bytes.length ∧
      writeFrame bytes s =
        ({ s with txline := s.txline ++ bytes.take n, device := { s.device with writeChoices := rest },
                  txFault := true } : State).complete { status := .writeFailure }) ∨
    (∃ n rest, s.device.writeChoices = n :: rest ∧ bytes.length ≤ n ∧
      writeFrame bytes s =
        ({ s with txline := s.txline ++ bytes, device := { s.device with writeChoices := rest } } : State).complete
          { status := .ok }) := by
  rcases write_cases s.device bytes with ⟨h0, h⟩ | ⟨n, rest, h0, h⟩
  · exact .inl ⟨h0, by rw [writeFrame, h]⟩
  · by_cases hn : n < bytes.length
    · refine .inr (.inl ⟨n, rest, h0, hn, ?_⟩)
      rw [writeFrame, h]
      simp only [State.transmit, Nat.min_eq_left (Nat.le_of_lt hn), hn, if_true]
    · refine .inr (.inr ⟨n, rest, h0, Nat.le_of_not_lt hn, ?_⟩)
      rw [writeFrame, h]
      simp only [State.transmit, Nat.min_eq_right (Nat.le_of_not_lt hn), Nat.lt_irrefl, if_false, List.take_length]

/-- Everything the body of RX.READ can do (R90, R142). -/
theorem readDevice_cases (s : State) :
    (s.shutdownReq = true ∧ s.readBlocked = false ∧ readDevice s = s.close .shutdown) ∨
    ((s.shutdownReq = false ∨ s.readPending = true) ∧ s.device.returns = false ∧
      readDevice s =
        { s with device := { s.device with readChoices := s.device.readChoices.tail }, readPending := true }) ∨
    (∃ rest, s.shutdownReq = false ∧ s.device.readChoices = .closed :: rest ∧
      readDevice s = ({ s with device := { s.device with readChoices := rest } } : State).close .deviceClosed) ∨
    (∃ n rest, s.shutdownReq = false ∧ s.device.readChoices = .upTo n :: rest ∧
      readDevice s =
        { s with
          device := { s.device with held := s.device.held.drop (min n s.rxbuf.free), readChoices := rest }
          readPending := false
          rxbuf := s.rxbuf ++ s.device.held.take (min n s.rxbuf.free)
          rxState := .scanning }) := by
  unfold readDevice
  by_cases hc : (s.shutdownReq && !s.readBlocked) = true
  · rw [if_pos hc]
    simp only [Bool.and_eq_true, Bool.not_eq_true'] at hc
    exact .inl ⟨hc.1, hc.2, rfl⟩
  · rw [if_neg hc]
    have hf : s.shutdownReq = false ∨ (s.readPending = true ∧ s.device.returns = false) := by
      simpa [State.readBlocked, Decidable.or_iff_not_imp_left] using hc
    refine .inr ?_
    rcases read_cases s.device s.rxbuf.free with ⟨h0, h⟩ | ⟨rest, hr, h0, h⟩ | ⟨n, rest, hr, h0, h⟩ <;> rw [h]
    · exact .inl ⟨hf.imp_right And.left, h0, rfl⟩
    · exact .inr (.inl ⟨rest, hf.resolve_right (by simp [hr]), h0, rfl⟩)
    · exact .inr (.inr ⟨n, rest, hf.resolve_right (by simp [hr]), h0, rfl⟩)

/-- An engine step answers a next state exactly where `RX_STATE` selects it (R60). -/
theorem inState_next_iff {r : RxState} {s t : State} {f : State → State} :
    inState r s (fun s => .next (f s)) = .next t ↔ s.rxState = r ∧ f s = t := by
  unfold inState
  split <;> rename_i h
  · exact ⟨fun e => ⟨h, Host.Outcome.next.inj e⟩, fun e => congrArg Host.Outcome.next e.2⟩
  · exact ⟨fun e => (nomatch e), fun e => absurd e.1 h⟩

/-- An engine step in the state that selects it. -/
theorem inState_pos {r : RxState} {s : State} {f : State → Result} (h : s.rxState = r) : inState r s f = f s := if_pos h

/-- An engine step in any other state. -/
theorem inState_neg {r : RxState} {s : State} {f : State → Result} (h : s.rxState ≠ r) :
    inState r s f = .refused .stepNotSelected := if_neg h

/-! Fetching. -/

theorem mover_cons {s : State} {a : Agent} {ts : List Agent} (h : s.turns = a :: ts) : s.mover = a := by
  rw [State.mover, h, List.headD_cons]

theorem mover_nil {s : State} (h : s.turns = []) : s.mover = .engine := by rw [State.mover, h, List.headD_nil]

theorem fetch_host {s : State} (h : s.mover = .host) : fetch s = s.port.head?.map .command := by rw [fetch, h]

theorem fetch_engine {s : State} (h : s.mover = .engine) : fetch s = some (.engine s.rxState.code) := by rw [fetch, h]

theorem fetch_device {s : State} (h : s.mover = .device) : fetch s = s.line.head?.map .line := by rw [fetch, h]

/-- The `RX_STATE` codes read back as their states (R20). -/
@[simp] theorem rxStateOfCode_code (r : RxState) : rxStateOfCode r.code = some r := by cases r <;> rfl

end Sys2Proof.Machine
end

