-- ==== Sys2Proof/Laws/PerInstr.lean ====
section
/-! SUPPORT. One lemma per constructor of Instr: the selector under which the encoder presents it is the one its row of
spec/opcode_table.json gives (R52, R54, R60). -/

namespace Sys2Proof.Laws.SelectorOfRow

/-- The selector of a row: an `OP` code, an `RX_STATE` code, or the marker on the line. -/
def Statement (i : Instr) : Prop :=
  match encode i with
  | .command c => c.op.toNat ∈ [1, 2, 3, 4, 5, 6, 7]
  | .engine code => code.toNat ∈ [1, 2, 3, 4, 5]
  | .line b => b.take 3 = Config.preamble

theorem crc16Compute (data : List Byte) (length : Nat) (seed : Half) : Statement (.crc16Compute data length seed) := by
  simp [Statement, encode]
theorem frameEncode (c c1 c2 c3 t : Byte) (p : List Byte) : Statement (.frameEncode c c1 c2 c3 t p) := by
  simp [Statement, encode]
theorem frameDecode (b : List Byte) : Statement (.frameDecode b) := by
  simp [Statement, encode]
theorem sessionSend (c c1 c2 c3 t : Byte) (p : List Byte) : Statement (.sessionSend c c1 c2 c3 t p) := by
  simp [Statement, encode]
theorem rxStart : Statement .rxStart := by
  simp [Statement, encode]
theorem sessionShutdown : Statement .sessionShutdown := by
  simp [Statement, encode]
theorem sessionReset : Statement .sessionReset := by
  simp [Statement, encode]
theorem rxRead : Statement .rxRead := by
  simp [Statement, encode]
theorem rxScan : Statement .rxScan := by
  simp [Statement, encode]
theorem rxDeliver : Statement .rxDeliver := by
  simp [Statement, encode]
theorem rxWait : Statement .rxWait := by
  simp [Statement, encode]
theorem rxResync : Statement .rxResync := by
  simp [Statement, encode]
theorem frame (c c1 c2 c3 t : Byte) (p : List Byte) (crc : Half) : Statement (.frame c c1 c2 c3 t p crc) := rfl

end Sys2Proof.Laws.SelectorOfRow
end

