-- ==== Sys2Proof/Laws/Step.lean ====
section
/-! SUPPORT. What one step can do, said once: proofs about runs cite this instead of unfolding the step. -/

namespace Sys2Proof.Machine

/-- Everything a step that answers a next state can have done: nothing but use a turn (an agent with nothing to present, or
the engine in a state without a step), run the instruction it decoded, or let bytes that are no frame reach the device. -/
theorem step_cases {s t : State} (h : step s = .next t) :
    t = s.takeTurn ∨
    (∃ e i, fetch s = some e ∧ decode e = .ok i ∧ exec i s.takeTurn = .next t) ∨
    (∃ b err, fetch s = some (.line b) ∧ decode (.line b) = .error err ∧ t = s.takeTurn.arrive b) := by
  unfold step at h
  split at h
  · exact .inl (Host.Outcome.next.inj h).symm
  · rename_i e he
    split at h
    · rename_i i hi
      exact .inr (.inl ⟨e, i, he, hi, h⟩)
    · rename_i err herr
      cases e with
      | line b => exact .inr (.inr ⟨b, err, he, herr, (Host.Outcome.next.inj h).symm⟩)
      | command c => exact (nomatch h)
      | engine code =>
        cases err with
        | reservedState => exact (nomatch h)
        | _ => exact .inl (Host.Outcome.next.inj h).symm

/-- With no turn left, using up a turn changes nothing. -/
theorem takeTurn_of_nil {s : State} (h : s.turns = []) : s.takeTurn = s := by
  obtain ⟨_, _, _, _, _, _, _, _, _, _, _, turns, _, _⟩ := s
  subst h
  rfl

end Sys2Proof.Machine
end

