-- ==== Sys2Proof/Tests/Slice0.lean ====
section
/-! SUPPORT. Tests: expected values from 95_test_vectors.md (each test names its vector) or worked by hand from the rule it
names; then, for every statement with hypotheses, a witness that something meets them. -/

namespace Sys2Proof.Tests

open Sys2Proof Sys2Proof.Machine

/-! ## Helpers -/

/-- The state an outcome leads to, if any. -/
def after : Result → Option State
  | .next t => some t
  | .fault _ => none
  | .refused _ => none

/-- The result a command returned. -/
def returned (r : Result) : Option Response := (after r).bind (·.response)

/-- The result of executing an instruction right after reset. -/
def run (i : Instr) : Result := exec i State.reset

/-- A state of the engine with the given RXBUF. -/
def at_ (r : RxState) (b : List Byte) : State := { State.reset with rxState := r, rxbuf := b }

/-- A device that holds bytes and gives the answers listed. -/
def dev (held : List Byte) (reads : List ReadChoice) (writes : List Nat) : Device := ⟨held, reads, writes⟩

/-- A state in `Reading` with a device read pending. -/
def pending (reads : List ReadChoice) (shutdown : Bool) : State :=
  { at_ .reading [0xFF] with readPending := true, shutdownReq := shutdown, device := dev [7] reads [] }

/-- Frame `FE` of 95_test_vectors.md. -/
def fe : List Byte := [0xFF, 0x55, 0xAA, 0x00, 0x01, 0x02, 0x01, 0x05, 0x00, 0x04, 0x12, 0x34, 0x56, 0x78, 0xAA, 0x7C]

/-- Frame `F1` of 95_test_vectors.md. -/
def f1 : List Byte := [0xFF, 0x55, 0xAA, 0x01, 0x10, 0x20, 0x30, 0x40, 0x00, 0x00, 0x9B, 0x15]

/-- The Frame record of `F1`, as program P2 gives it. -/
def recF1 : Frame := ⟨0xFF, 0x55, 0xAA, 1, 0x10, 0x20, 0x30, 0x40, 0, [], 0x9B15⟩

/-! ## Well-formedness: an ill-formed term for each check -/

theorem test_wf_frame : WellFormed (.frame 0 1 2 1 5 [0x12, 0x34, 0x56, 0x78] 0xAA7C) = true := by decide +kernel
theorem test_wf_refuses_long_payload : WellFormed (.frame 0 0 0 0 0 (List.replicate 1025 0) 0) = false := by decide +kernel
theorem test_wf_refuses_wrong_crc : WellFormed (.frame 0 1 2 1 5 [0x12, 0x34, 0x56, 0x78] 0x7CAA) = false := by decide +kernel

/-! ## Decoding: every constructor, its word written out from R52, R54 or R60 -/

theorem test_decode_crc16Compute : decode (.command ⟨0b0001, { data := [0x31], length := 1, seed := 0xFFFF }⟩) =
    .ok (.crc16Compute [0x31] 1 0xFFFF) := by decide
theorem test_decode_frameEncode :
    decode (.command ⟨0b0010, { channel := 1, cmd1 := 2, cmd2 := 3, cmd3 := 4, targetId := 5, payload := [6] }⟩) =
      .ok (.frameEncode 1 2 3 4 5 [6]) := by decide
theorem test_decode_frameDecode : decode (.command ⟨0b0011, { buffer := [0xFF] }⟩) = .ok (.frameDecode [0xFF]) := by decide
theorem test_decode_sessionSend :
    decode (.command ⟨0b0100, { channel := 1, cmd1 := 2, cmd2 := 3, cmd3 := 4, targetId := 5, payload := [6] }⟩) =
      .ok (.sessionSend 1 2 3 4 5 [6]) := by decide
theorem test_decode_rxStart : decode (.command ⟨0b0101, {}⟩) = .ok .rxStart := by decide
theorem test_decode_sessionShutdown : decode (.command ⟨0b0110, {}⟩) = .ok .sessionShutdown := by decide
theorem test_decode_sessionReset : decode (.command ⟨0b0111, {}⟩) = .ok .sessionReset := by decide
theorem test_decode_rxRead : decode (.engine 0b001) = .ok .rxRead := by decide
theorem test_decode_rxScan : decode (.engine 0b010) = .ok .rxScan := by decide
theorem test_decode_rxDeliver : decode (.engine 0b011) = .ok .rxDeliver := by decide
theorem test_decode_rxWait : decode (.engine 0b100) = .ok .rxWait := by decide
theorem test_decode_rxResync : decode (.engine 0b101) = .ok .rxResync := by decide
/-- The bytes of frame `F1`. -/
theorem test_decode_frame : decode (.line f1) = .ok (.frame 0x01 0x10 0x20 0x30 0x40 [] 0x9B15) := by decide +kernel
theorem test_decode_reserved : [0, 8, 15].map (fun op => decode (.command ⟨op, {}⟩)) =
    [.error (.reservedOp 0), .error (.reservedOp 8), .error (.reservedOp 15)] := by decide
theorem test_decode_no_step : [0, 6, 7].map (fun c => decode (.engine c)) =
    [.error (.noStep 0), .error (.noStep 6), .error .reservedState] := by decide
/-- Noise, a header of 9 bytes, length 1025, a missing CRC byte, a byte too many. -/
theorem test_decode_line_errors :
    [[0x01], fe.take 9, [0xFF, 0x55, 0xAA, 0, 0, 0, 0, 0, 4, 1], f1.take 11, f1 ++ [0]].map (fun b => decode (.line b)) =
      [.error .noMarker, .error .truncated, .error (.corruptHeader 1025), .error .truncated, .error .trailing] := by
  decide +kernel
/-- The FRAME row's word, as the row writes it and with its first byte in bits 7..0. -/
theorem test_table_frame : [0xFF55AA00000000000000, 0xAA55FF].map (decodeTableWord 80) =
    [some (.frame 0 0 0 0 0 [] 0), some (.frame 0 0 0 0 0 [] 0)] := by decide +kernel

/-! ## One step each: 95_test_vectors.md, part 2 -/

/-- V-C1. -/
theorem test_crcBit : [0x0000, 0x0001, 0x7FFF, 0x8000, 0xFFFF, 0x0810, 0x8810, 0x4000].map crcBit =
    [0x0000, 0x0002, 0xFFFE, 0x1021, 0xEFDF, 0x1020, 0x0001, 0x8000] := by decide +kernel
/-- V-C6. -/
theorem test_crc_check_value :
    returned (run (.crc16Compute [0x31, 0x32, 0x33, 0x34, 0x35, 0x36, 0x37, 0x38, 0x39] 9 0xFFFF)) =
      some ⟨.ok, .crc 0x29B1⟩ := by decide +kernel
/-- V-C4, V-C5. -/
theorem test_crc_length :
    [2, 3, 4].map (fun n => returned (run (.crc16Compute [0x31, 0x32, 0x33] n 0))) =
      [some ⟨.ok, .crc 0x20B5⟩, some ⟨.ok, .crc 0x9752⟩, some ⟨.invalidLength, .none⟩] := by decide +kernel
/-- V-E1. -/
theorem test_encode : returned (run (.frameEncode 0 1 2 1 5 [0x12, 0x34, 0x56, 0x78])) = some ⟨.ok, .bytes fe⟩ := by
  decide +kernel
/-- V-E10. -/
theorem test_encode_oversize : returned (run (.frameEncode 0 0 0 0 0 (List.replicate 1025 0))) =
    some ⟨.payloadTooLarge, .none⟩ := by decide +kernel
/-- V-D7: noise before and after `FE`. -/
theorem test_decode_ok : returned (run (.frameDecode ([1, 2] ++ fe ++ [9]))) =
    some ⟨.ok, .decoded 18 (some ⟨0xFF, 0x55, 0xAA, 0, 1, 2, 1, 5, 4, [0x12, 0x34, 0x56, 0x78], 0xAA7C⟩)⟩ := by
  decide +kernel
/-- V-D2, V-D3, V-D4, V-D6. -/
theorem test_decode_not_ok :
    [[1, 2, 0xFF], [0xFF, 0x55, 0xFF], [9, 9, 0xFF, 0x55, 0xAA, 0, 1],
      [7, 0xFF, 0x55, 0xAA, 1, 2, 3, 4, 5, 0xFF, 0xFF, 0, 0], fe.set 15 0x7D].map
        (fun b => ((decodeFrame b).status, (decodeFrame b).consumed)) =
      [(.incomplete, 2), (.incomplete, 2), (.incomplete, 2), (.corruptHeader, 2), (.checksumMismatch, 1)] := by
  decide +kernel
/-- V-O1, V-O3: the device accepts all 13 bytes, or 7 of them. -/
theorem test_send :
    [13, 7].map (fun n =>
      (after (exec (.sessionSend 3 1 1 2 9 [0x3C]) { State.reset with device := dev [] [] [n] })).map
        fun t => (t.txline, t.txFault, t.response)) =
      [some ([0xFF, 0x55, 0xAA, 3, 1, 1, 2, 9, 0, 1, 0x3C, 0x46, 0xAE], false, some ⟨.ok, .none⟩),
       some ([0xFF, 0x55, 0xAA, 3, 1, 1, 2], true, some ⟨.writeFailure, .none⟩)] := by decide +kernel
/-- V-O4: after a fault, an oversize payload too is `WriteFailure`. -/
theorem test_send_after_fault :
    (after (exec (.sessionSend 0 0 0 0 0 (List.replicate 1025 0)) { State.reset with txFault := true })).map
      (fun t => (t.txline, t.response)) = some ([], some ⟨.writeFailure, .none⟩) := by decide +kernel
/-- V-O5. -/
theorem test_start : (after (run .rxStart)).map (·.rxState) = some .reading := by decide +kernel
theorem test_start_refused : after (exec .rxStart (at_ .closed [])) = none := by decide +kernel
/-- V-O6. -/
theorem test_shutdown : (after (exec .sessionShutdown (at_ .frameDelivered []))).map (fun t => (t.shutdownReq, t.rxState)) =
    some (true, .frameDelivered) := by decide +kernel
/-- V-O7. -/
theorem test_reset :
    after (exec .sessionReset { at_ .closed [0xFF, 0x55, 0xAA, 0] with
      shutdownReq := true, closeCause := .deviceClosed, txFault := true, delivered := [recF1], txline := fe }) =
      some { State.reset with delivered := [recF1], txline := fe, response := some ⟨.ok, .none⟩ } := by decide +kernel
/-- V-R1: two bytes are appended to `FF 55`. -/
theorem test_read_bytes :
    (after (exec .rxRead { at_ .reading [0xFF, 0x55] with device := dev [0xAA, 0] [.upTo 2] [] })).map
      (fun t => (t.rxState, t.rxbuf, t.device.held)) = some (.scanning, [0xFF, 0x55, 0xAA, 0], []) := by decide +kernel
/-- V-R3, V-R4: the device closes, without and with a shutdown pending. -/
theorem test_read_closes :
    [false, true].map (fun f =>
      (after (exec .rxRead { at_ .reading [0xFF] with shutdownReq := f, device := dev [] [.closed] [] })).map
        fun t => (t.rxState, t.rxbuf, t.closeCause, t.device.readChoices)) =
      [some (.closed, [0xFF], .deviceClosed, []), some (.closed, [0xFF], .shutdown, [.closed])] := by decide +kernel
/-- R142, R126: a pending read that does not return holds the shutdown off, and one that returns lets it through. -/
theorem test_pending_read :
    [[], [.notYet], [.upTo 1], [.closed]].map (fun reads =>
      (after (exec .rxRead (pending reads true))).map fun t => (t.rxState, t.closeCause, t.rxbuf, t.readPending)) =
      [some (.reading, .none, [0xFF], true), some (.reading, .none, [0xFF], true),
       some (.closed, .shutdown, [0xFF], false), some (.closed, .shutdown, [0xFF], false)] := by decide +kernel
/-- V-R5. -/
theorem test_scan_ok : (after (exec .rxScan (at_ .scanning ([0] ++ f1 ++ [0xFF])))).map
    (fun t => (t.rxState, t.rxbuf, t.rxFrame)) = some (.frameDelivered, [0xFF], some recF1) := by decide +kernel
/-- V-R6, V-R7. -/
theorem test_scan_not_ok :
    [[0xDE, 0xAD, 0xFF], [0xFF, 0x55, 0xAA, 0, 0, 0, 0, 0, 4, 1, 0x77]].map (fun b =>
      (after (exec .rxScan (at_ .scanning b))).map fun t => (t.rxState, t.rxbuf, t.rxFrame)) =
      [some (.incomplete, [0xFF], none), some (.corrupt, [0x55, 0xAA, 0, 0, 0, 0, 0, 4, 1, 0x77], none)] := by
  decide +kernel
/-- V-R8, with a shutdown pending. -/
theorem test_deliver :
    (after (exec .rxDeliver { at_ .frameDelivered [0xFF] with rxFrame := some recF1, shutdownReq := true })).map
      (fun t => (t.rxState, t.rxFrame, t.delivered, t.rxbuf)) = some (.scanning, none, [recF1], [0xFF]) := by decide +kernel
/-- V-R9. -/
theorem test_wait : after (exec .rxWait (at_ .incomplete [0xFF])) = some (at_ .reading [0xFF]) := by decide +kernel
/-- V-R10. -/
theorem test_resync : after (exec .rxResync (at_ .corrupt [0x55, 0xAA, 0])) = some (at_ .scanning [0x55, 0xAA, 0]) := by
  decide +kernel
/-- R54: the bytes of `F1` reach the device behind what it holds. -/
theorem test_frame_arrives :
    (after (exec (.frame 0x01 0x10 0x20 0x30 0x40 [] 0x9B15) { State.reset with device := dev [7] [] [] })).map
      (·.device.held) = some (7 :: f1) := by decide +kernel
/-- V-O8, through the step. -/
theorem test_reserved_refused : after (step (State.reset.withFetchWord 4 8)) = none := by decide +kernel
/-- V-R11: in `Idle` and in `Closed` a step changes nothing. -/
theorem test_no_step : [RxState.idle, .closed].map (fun r => after (step (at_ r [1]))) =
    [some (at_ .idle [1]), some (at_ .closed [1])] := by decide +kernel
/-- P1, step 2, through the step: the first instruction after reset. -/
theorem test_first_instruction : (after (step (State.reset.withFetchWord 4 5))).map (·.rxState) = some .reading := by
  decide +kernel
/-- A read placed by its table word times out (R36). -/
theorem test_first_engine_step : (after (step (State.reset.withFetchWord 3 1))).map (·.rxState) = some .scanning := by
  decide +kernel

/-! ## Witnesses: something meets the hypotheses of each statement that has any -/

theorem witness_crc_chains : 0 ≤ 2 ∧ 2 ≤ ([1, 2] : List Byte).length := by decide
theorem witness_crc_linear : ([1, 2] : List Byte).length = ([3, 4] : List Byte).length := by decide
/-- Also for SingleBitErrorIsChecksumMismatch (first and last byte of each range) and
InflatedLengthAloneIsCorruptOrIncomplete (next legal length, largest legal, first illegal). -/
theorem witness_encoded_frame :
    encodeFrame 0 1 2 1 5 [0x12, 0x34, 0x56, 0x78] = some fe ∧ (3 ≤ 3 ∧ 3 ≤ 7) ∧ (3 ≤ 7 ∧ 7 ≤ 7) ∧ (0 < 8 ∧ 7 < 8) ∧
    (10 ≤ 10 ∧ 10 < 12 + ([0x12, 0x34, 0x56, 0x78] : List Byte).length) ∧
    (10 ≤ 15 ∧ 15 < 12 + ([0x12, 0x34, 0x56, 0x78] : List Byte).length) ∧
    ([0x12, 0x34, 0x56, 0x78] : List Byte).length < (5 : Half).toNat ∧
    ([0x12, 0x34, 0x56, 0x78] : List Byte).length < (1024 : Half).toNat ∧
    ([0x12, 0x34, 0x56, 0x78] : List Byte).length < (1025 : Half).toNat :=
  ⟨by decide +kernel, by decide, by decide, by decide, by decide, by decide, by decide, by decide, by decide⟩
/-- With a marker at 0; with none and 0, 1 or 2 bytes kept. -/
theorem witness_frame_decode :
    (0 + 2 < fe.length ∧ byteAt fe 0 = 0xFF ∧ byteAt fe 1 = 0x55 ∧ byteAt fe 2 = 0xAA) ∧
    ∀ b ∈ ([[], [0xFF], [1, 0xFF, 0x55]] : List (List Byte)), ∀ i, i + 2 < b.length →
      ¬ (byteAt b i = 0xFF ∧ byteAt b (i + 1) = 0x55 ∧ byteAt b (i + 2) = 0xAA) := by
  refine ⟨by decide, ?_⟩
  intro b hb i hi
  simp only [List.mem_cons, List.not_mem_nil, or_false] at hb
  rcases hb with rfl | rfl | rfl
  · exact absurd hi (Nat.not_lt_zero _)
  · exact absurd hi (by simp)
  · have : i = 0 := by simp at hi; omega
    subst this
    decide
theorem witness_round_trip : (List.replicate 1024 (0 : Byte)).length ≤ 1024 := List.length_replicate.le
theorem witness_incomplete : (decodeFrame [0xFF, 0x55]).status = .incomplete := by decide
theorem witness_candidate_decided :
    (Config.preamble ++ List.replicate 1033 0).take 3 = [0xFF, 0x55, 0xAA] ∧
    1036 ≤ (Config.preamble ++ List.replicate 1033 (0 : Byte)).length := by
  refine ⟨rfl, ?_⟩
  rw [List.length_append, List.length_replicate]
  decide
theorem witness_later_bytes : (decodeFrame fe).status ≠ .incomplete ∧ (decodeFrame [1]).status = .incomplete := by
  decide +kernel
theorem witness_valid_frames : ∀ f ∈ [recF1], f.Valid := by decide +kernel
theorem witness_zero_frame : 2 ≤ 2 ∧ 2 ≤ 1024 ∧ ∃ bytes, encodeFrame 0 0 0 0 0 (List.replicate 2 0) = some bytes :=
  ⟨by decide, by decide, _, encodeFrame_eq_some.mpr ⟨by decide, rfl⟩⟩

/-- The three cases of SessionSendResult and SendWaitsWhileWriteHangs, with the payload sizes where they meet and the last
short and the first full answer. -/
theorem witness_send :
    { State.reset with txFault := true }.txFault = true ∧ State.reset.txFault = false ∧
    1024 < (List.replicate 1025 (0 : Byte)).length ∧ (List.replicate 1024 (0 : Byte)).length ≤ 1024 ∧
    { State.reset with device := dev [] [] [15] }.device.writeChoices = 15 :: [] ∧ 15 < fe.length ∧
    { State.reset with device := dev [] [] [16] }.device.writeChoices = 16 :: [] ∧ fe.length ≤ 16 ∧
    State.reset.device.writeChoices = [] := by
  rw [List.length_replicate, List.length_replicate]
  decide
theorem witness_start : State.reset.rxState = .idle ∧ (at_ .reading []).rxState ≠ .idle := by decide
theorem witness_shutdown : { at_ .reading [] with shutdownReq := true }.shutdownReq = true ∧
    { at_ .reading [] with shutdownReq := true }.rxState = .reading := by decide
/-- Every clause of RxReadResult: a shutdown with no read pending and with one that returns, closed, no answer and one that
waits, for a read pending or not; then an answer of nothing, one below what is held, one above it, and one into a full
RXBUF. -/
theorem witness_read : (at_ .reading []).rxState = .reading ∧ (at_ .reading []).shutdownReq = false ∧
    { at_ .reading [] with shutdownReq := true }.shutdownReq = true ∧ (at_ .reading []).readPending = false ∧
    ReadChoice.upTo 0 ≠ .notYet ∧ ReadChoice.closed ≠ .notYet ∧ (pending [] true).readPending = true ∧
    (pending [.notYet] true).device.readChoices = .notYet :: [] ∧
    (at_ .reading []).device.readChoices = [] ∧
    { at_ .reading [] with device := dev [] [.closed] [] }.device.readChoices = .closed :: [] ∧
    (∀ n ∈ [0, 1, 3], { at_ .reading [] with device := dev [1, 2] [.upTo n] [] }.device.readChoices = .upTo n :: []) ∧
    ∃ s : State, s.rxState = .reading ∧ s.shutdownReq = false ∧ s.device.readChoices = .upTo 1 :: [] ∧
      s.device.held = [1] ∧ s.rxbuf.length = Config.rxCap := by
  refine ⟨rfl, rfl, rfl, rfl, by decide, by decide, rfl, rfl, rfl, rfl, fun _ _ => rfl, ?_⟩
  obtain ⟨b, hb⟩ : ∃ b : List Byte, b.length = Config.rxCap := ⟨List.replicate Config.rxCap 0, List.length_replicate⟩
  exact ⟨{ at_ .reading b with device := dev [1] [.upTo 1] [] }, rfl, rfl, rfl, rfl, hb⟩
theorem witness_scan : (at_ .scanning []).rxState = .scanning := by decide
theorem witness_deliver : { at_ .frameDelivered [] with rxFrame := some recF1 }.rxState = .frameDelivered ∧
    { at_ .frameDelivered [] with rxFrame := some recF1 }.rxFrame = some recF1 := by decide
theorem witness_wait : (at_ .incomplete []).rxState = .incomplete := by decide
theorem witness_resync : (at_ .corrupt []).rxState = .corrupt := by decide
/-- In `Idle` all five hypotheses of EngineStepRefusedOutsideItsState hold. -/
theorem witness_outside : State.reset.rxState ≠ .reading ∧ State.reset.rxState ≠ .scanning ∧
    State.reset.rxState ≠ .frameDelivered ∧ State.reset.rxState ≠ .incomplete ∧ State.reset.rxState ≠ .corrupt := by decide

/-- Every row of the transition table that leaves one state for another is taken by some instruction. -/
theorem witness_transitions :
    ([(Instr.rxStart, at_ .idle []), (.rxRead, { at_ .reading [] with shutdownReq := true }),
      (.rxRead, { at_ .reading [] with device := dev [] [.closed] [] }),
      (.rxRead, { at_ .reading [] with device := dev [] [.upTo 0] [] }), (.rxScan, at_ .scanning f1),
      (.rxScan, at_ .scanning []), (.rxScan, at_ .scanning (fe.set 15 0)), (.rxDeliver, at_ .frameDelivered []),
      (.rxWait, at_ .incomplete []), (.rxResync, at_ .corrupt []), (.sessionReset, at_ .closed [])].map fun p =>
        (after (exec p.1 p.2)).map (·.rxState)) =
      [some .reading, some .closed, some .closed, some .scanning, some .frameDelivered, some .incomplete, some .corrupt,
        some .scanning, some .reading, some .scanning, some .idle] := by decide +kernel

/-- A state in `Reading` that meets the invariant. -/
theorem witness_invariant : (at_ .reading []).Inv ∧ (at_ .reading []).rxState = .reading ∧
    step (at_ .reading []) = .next { at_ .reading [] with readPending := true } := by
  refine ⟨⟨Nat.zero_le _, fun _ => .inl rfl, fun h => (nomatch h), by decide, by decide, fun _ => rfl,
    fun f h => (nomatch h), fun f h => (nomatch h)⟩, rfl, rfl⟩
/-- For HistoriesOnlyGrow, WritesFollowAccessTable, OnlyResetClearsStickyFlags and CommandsReturnTheirStatuses: an
instruction other than SESSION.RESET that completes, with both flags set; and the SESSION.SEND whose write hangs. -/
theorem witness_exec_next :
    exec .sessionShutdown { State.reset with shutdownReq := true, txFault := true } =
      .next { State.reset with shutdownReq := true, txFault := true, response := some ⟨.ok, .none⟩ } ∧
    Instr.sessionShutdown ≠ .sessionReset ∧ (∃ c, encode .sessionShutdown = .command c) ∧
    step State.reset = .next State.reset ∧
    (∃ c, encode (.sessionSend 0 0 0 0 0 []) = .command c) ∧
    exec (.sessionSend 0 0 0 0 0 []) State.reset = .next State.reset := ⟨rfl, by decide, ⟨_, rfl⟩, rfl, ⟨_, rfl⟩, rfl⟩
/-- An instruction that completes for each clause of ReceivedBytesKeepLineOrder. -/
theorem witness_line_order :
    ∀ p ∈ [(Instr.rxRead, { at_ .reading [0xFF] with device := dev [7] [.upTo 1] [] }), (.rxScan, at_ .scanning [1, 0xFF]),
      (.frame 0x01 0x10 0x20 0x30 0x40 [] 0x9B15, { State.reset with line := [f1] }), (.sessionReset, at_ .closed [1]),
      (.rxWait, at_ .incomplete [0xFF])], ∃ t, exec p.1 p.2 = .next t := by
  simp only [List.forall_mem_cons]
  exact ⟨⟨_, rfl⟩, ⟨_, rfl⟩, ⟨_, rfl⟩, ⟨_, rfl⟩, ⟨_, rfl⟩, fun _ h => (nomatch h)⟩
theorem witness_commute : Instr.rxWait ∈ [Instr.rxRead, .rxScan, .rxDeliver, .rxWait, .rxResync] ∧
    exec .rxWait (at_ .incomplete []) = .next (at_ .reading []) ∧
    ∃ u, exec (.sessionSend 0 0 0 0 0 []) (at_ .incomplete []) = .next u := ⟨by decide, rfl, _, rfl⟩
theorem witness_run : (at_ .scanning f1).rxState = .scanning ∧ (at_ .scanning f1).rxFrame = none ∧
    (at_ .scanning f1).turns = [] := by decide
/-- Each state that ShutdownDeliversBufferedFramesFirst starts from, with a partial frame, a whole one or a latched one. -/
theorem witness_shutdown_first :
    ∀ s ∈ [at_ .scanning f1, { at_ .frameDelivered f1 with rxFrame := some recF1 }, at_ .corrupt f1, at_ .incomplete [0xFF],
      at_ .reading [0xFF]], ({ s with shutdownReq := true } : State).Inv ∧ s.rxState ≠ .idle ∧ s.rxState ≠ .closed ∧
        s.readPending = false ∧ s.turns = [] := by
  have hc : 12 ≤ Config.rxCap := Nat.le_trans (by decide) rxCap_ge
  have hf : f1.length ≤ Config.rxCap := hc
  have h1 : [(0xFF : Byte)].length ≤ Config.rxCap := Nat.le_trans (by decide) hc
  simp only [List.forall_mem_cons]
  refine ⟨⟨⟨hf, ?_, ?_, ?_, ?_, ?_, ?_, ?_⟩, ?_⟩, ⟨⟨hf, ?_, ?_, ?_, ?_, ?_, ?_, ?_⟩, ?_⟩, ⟨⟨hf, ?_, ?_, ?_, ?_, ?_, ?_, ?_⟩, ?_⟩,
    ⟨⟨h1, ?_, ?_, ?_, ?_, ?_, ?_, ?_⟩, ?_⟩, ⟨⟨h1, ?_, ?_, ?_, ?_, ?_, ?_, ?_⟩, ?_⟩, fun _ h => (nomatch h)⟩
  all_goals decide +kernel
/-- A read that never returns, one that returns at once, and one that waits for two turns. -/
theorem witness_pending : (pending [] true).rxState = .reading ∧ (pending [] true).readPending = true ∧
    (pending [] true).turns = [] ∧ (pending [] true).device.readChoices = [] ∧ (pending [] true).shutdownReq = true ∧
    ReadChoice.closed ≠ .notYet ∧ (pending [.closed] true).device.readChoices = List.replicate 0 .notYet ++ .closed :: [] ∧
    (pending [.notYet, .notYet, .closed] true).device.readChoices = List.replicate 2 .notYet ++ .closed :: [] := by decide
/-- The shortest answer that returns the whole of `F1`. -/
theorem witness_wire_frame :
    encodeFrame 0x01 0x10 0x20 0x30 0x40 [] = some f1 ∧
    ∃ s : State, s.rxState = .reading ∧ s.rxbuf = [] ∧ s.rxFrame = none ∧ s.shutdownReq = false ∧ s.turns = [.device] ∧
      s.line = f1 :: [] ∧ s.device.held = [] ∧ s.device.readChoices = .upTo 12 :: [] ∧ f1.length ≤ 12 :=
  ⟨by decide +kernel, { at_ .reading [] with turns := [.device], line := [f1], device := dev [] [.upTo 12] [] },
    by decide⟩
/-- One state for each clause of StepRunsDecodedInstruction; the last also for LineBytesReachTheDevice. -/
theorem witness_step :
    (∃ s : State, s.turns = .host :: [] ∧ s.port = ⟨5, {}⟩ :: [] ∧ decode (.command ⟨5, {}⟩) = .ok .rxStart) ∧
    (∃ s : State, s.turns = .engine :: [] ∧ decode (.engine s.rxState.code) = .ok .rxRead) ∧
    (∃ s : State, s.turns = [] ∧ decode (.engine s.rxState.code) = .ok .rxResync) ∧
    (∃ s : State, s.turns = .device :: [] ∧ s.line = f1 :: [] ∧
      decode (.line f1) = .ok (.frame 0x01 0x10 0x20 0x30 0x40 [] 0x9B15)) :=
  ⟨⟨{ State.reset with turns := [.host], port := [⟨5, {}⟩] }, by decide⟩,
    ⟨{ at_ .reading [] with turns := [.engine] }, by decide⟩, ⟨at_ .corrupt [], by decide⟩,
    ⟨{ State.reset with turns := [.device], line := [f1] }, by decide +kernel⟩⟩
theorem witness_rests : (at_ .idle []).turns = [] ∧ (at_ .idle []).rxState = .idle ∧ (at_ .closed []).rxState = .closed ∧
    (at_ .reading []).rxState = .reading ∧ (at_ .reading []).shutdownReq = false ∧
    (at_ .reading []).device.readChoices = [] ∧ (pending [] true).readPending = true ∧
    (pending [.notYet] true).device.readChoices = .notYet :: [] := by decide
/-- R145, R126: with a read that has not returned and nothing but waits listed, `Reading` is quiescent, also with a shutdown
requested since; it is not where an answer is there, or where a requested shutdown meets no pending read. -/
theorem test_quiescent :
    ([pending [] true, pending [.notYet, .notYet] true, { at_ .reading [] with device := dev [] [.notYet] [] },
      pending [.upTo 0] false, { at_ .reading [] with shutdownReq := true }].map fun s => decide s.Quiescent) =
      [true, true, true, false, false] := by decide
theorem witness_quiescent : (at_ .reading []).turns = [] ∧ (at_ .reading []).port = [] := by decide
/-- A `Closed` state that meets the invariant and whose loop has returned. -/
theorem witness_loop_result : { at_ .closed [] with closeCause := .shutdown }.Inv ∧
    { at_ .closed [] with closeCause := .shutdown }.loopResult = some .shutdown :=
  ⟨⟨Nat.zero_le _, fun _ => .inl rfl, fun h => (nomatch h), by decide, by decide, fun h => (nomatch h),
    fun f h => (nomatch h), fun f h => (nomatch h)⟩, rfl⟩
/-- The reserved codes at the ends of their ranges, each presented by a state. -/
theorem witness_reserved : ∀ op ∈ ([0, 8, 15] : List (BitVec 4)), (op = 0 ∨ 8 ≤ op.toNat) ∧
    { State.reset with turns := [.host], port := [⟨op, {}⟩] }.turns = .host :: [] ∧
    { State.reset with turns := [.host], port := [⟨op, {}⟩] }.port = ⟨op, {}⟩ :: [] := by decide

end Sys2Proof.Tests
end

section
/-! SUPPORT. Facts about the byte-level definitions that the invariant of the block needs: fields and slices of a
buffer, the Frame that FRAME.DECODE reads, and the trimmed form of what it leaves (R14, R27, R86). -/

namespace Sys2Proof.Machine

/-! Indexing into a buffer whose front is dropped (R11). -/

@[simp] theorem byteAt_drop (b : List Byte) (k i : Nat) : byteAt (b.drop k) i = byteAt b (k + i) := by
  simp [byteAt, List.getD_eq_getElem?_getD]

@[simp] theorem halfAt_drop (b : List Byte) (k i : Nat) : halfAt (b.drop k) i = halfAt b (k + i) := by
  simp [halfAt, Nat.add_assoc]

theorem drop_eq_byteAt_cons {b : List Byte} {i : Nat} (h : i < b.length) :
    b.drop i = byteAt b i :: b.drop (i + 1) := by
  rw [List.drop_eq_getElem_cons h]
  simp [byteAt, h]

theorem slice_succ {b : List Byte} {i : Nat} (n : Nat) (h : i < b.length) :
    slice b i (n + 1) = byteAt b i :: slice b (i + 1) n := by
  rw [slice, drop_eq_byteAt_cons h, List.take_succ_cons, slice]

theorem slice_length {b : List Byte} {i n : Nat} (h : i + n ≤ b.length) : (slice b i n).length = n := by
  rw [slice, List.length_take, List.length_drop]
  omega

/-! The Frame of a complete candidate (R14, R55, R83). -/

/-- The bytes between the marker and the CRC field are the body of the fields read from them: no bit of the header is
lost when it is taken apart (R55). -/
theorem slice_eq_frameBody {b : List Byte} {p : Nat} (h : p + 10 + (halfAt b (p + 8)).toNat ≤ b.length) :
    slice b (p + 3) (7 + (halfAt b (p + 8)).toNat) =
      frameBody (byteAt b (p + 3)) (byteAt b (p + 4)) (byteAt b (p + 5)) (byteAt b (p + 6)) (byteAt b (p + 7))
        (slice b (p + 10) (halfAt b (p + 8)).toNat) := by
  have header (n : Nat) : slice b (p + 3) (7 + n) =
      [byteAt b (p + 3), byteAt b (p + 4), byteAt b (p + 5), byteAt b (p + 6), byteAt b (p + 7), byteAt b (p + 8),
        byteAt b (p + 9)] ++ slice b (p + 10) n := by
    rw [Nat.add_comm 7 n]
    iterate 7 rw [slice_succ _ (by omega)]
    rfl
  rw [header, frameBody, slice_length h, BitVec.ofNat_toNat, BitVec.setWidth_eq, halfAt, hiByte_be16, loByte_be16]

/-- A complete candidate with a legal length and a matching CRC field is a valid Frame (R14, R82). -/
theorem frameAt_valid {b : List Byte} {p : Nat} (hlen : p + 12 + (halfAt b (p + 8)).toNat ≤ b.length)
    (hlegal : (halfAt b (p + 8)).toNat ≤ 1024)
    (hcrc : bodyCrc (slice b (p + 3) (7 + (halfAt b (p + 8)).toNat)) =
      halfAt b (p + 10 + (halfAt b (p + 8)).toNat)) :
    (frameAt b p (halfAt b (p + 8))).Valid := by
  have hpayload : (slice b (p + 10) (halfAt b (p + 8)).toNat).length = (halfAt b (p + 8)).toNat :=
    slice_length (by omega)
  refine ⟨rfl, rfl, rfl, hlegal, hpayload.symm, ?_⟩
  rw [slice_eq_frameBody (by omega)] at hcrc
  exact hcrc.symm

/-- Every Frame that FRAME.DECODE returns is valid (R14). -/
theorem decodeFrame_valid {b : List Byte} : ∀ f ∈ (decodeFrame b).frame, f.Valid := by
  rcases decodeFrame_cases b with
    ⟨-, e⟩ | ⟨p, -, ⟨-, e⟩ | ⟨-, -, e⟩ | ⟨-, -, -, e⟩ | ⟨-, -, -, e⟩ | ⟨hlen, hlegal, hcrc, e⟩⟩ <;> rw [e]
  case inr.inr.inr.inr.inr =>
    rintro f ⟨⟩
    exact frameAt_valid (by omega) hlegal hcrc
  all_goals exact fun f hf => nomatch hf

/-- FRAME.DECODE returns a Frame exactly with the status `Ok` (R76). -/
theorem decodeFrame_frame_isSome {b : List Byte} :
    (decodeFrame b).frame.isSome = true ↔ (decodeFrame b).status = .ok := by
  rcases decodeFrame_cases b with
    ⟨-, e⟩ | ⟨p, -, ⟨-, e⟩ | ⟨-, -, e⟩ | ⟨-, -, -, e⟩ | ⟨-, -, -, e⟩ | ⟨-, -, -, e⟩⟩ <;> simp [e]

/-- FRAME.DECODE consumes at most what it is given (R76). -/
theorem decodeFrame_consumed_le (b : List Byte) : (decodeFrame b).consumed ≤ b.length := by
  rcases decodeFrame_cases b with ⟨-, e⟩ | ⟨p, hp, h⟩
  · simp [e]
  · have hmarker := markerAt_lt (findMarker_eq_some.mp hp).1
    rcases h with ⟨-, e⟩ | ⟨-, -, e⟩ | ⟨-, -, -, e⟩ | ⟨-, -, -, e⟩ | ⟨hlen, -, -, e⟩ <;> rw [e] <;> dsimp only <;> omega

/-- The statuses of FRAME.DECODE (R76). -/
theorem decodeFrame_status_mem (b : List Byte) :
    (decodeFrame b).status ∈ [Status.ok, .incomplete, .corruptHeader, .checksumMismatch] := by
  rcases decodeFrame_cases b with
    ⟨-, e⟩ | ⟨p, -, ⟨-, e⟩ | ⟨-, -, e⟩ | ⟨-, -, -, e⟩ | ⟨-, -, -, e⟩ | ⟨-, -, -, e⟩⟩ <;> simp [e]

/-- A decided candidate consumes its whole frame, or its sync byte where it is rejected (R86 (a)). -/
theorem decodeFrame_progress (b : List Byte) :
    ((decodeFrame b).status = .ok → 12 ≤ (decodeFrame b).consumed) ∧
    ((decodeFrame b).status = .corruptHeader ∨ (decodeFrame b).status = .checksumMismatch →
      1 ≤ (decodeFrame b).consumed) := by
  rcases decodeFrame_cases b with
    ⟨-, e⟩ | ⟨p, -, ⟨-, e⟩ | ⟨-, -, e⟩ | ⟨-, -, -, e⟩ | ⟨-, -, -, e⟩ | ⟨-, -, -, e⟩⟩ <;> simp [e]
  omega

/-! What is left after `Incomplete` (R27 (b), R78, R86). -/

/-- Without a marker, what is kept is nothing, a sync byte, or a sync byte and the first start byte (R78). -/
theorem drop_keptSuffix (b : List Byte) :
    b.drop (b.length - keptSuffix b) ∈ [[], [Config.sync], [Config.sync, Config.start1]] := by
  unfold keptSuffix
  dsimp only
  split
  next h =>
    obtain ⟨hn, hsync, hstart⟩ := h
    have hlast : b.length - 2 + 1 = b.length - 1 := by omega
    have hend : b.length - 1 + 1 = b.length := by omega
    rw [drop_eq_byteAt_cons (by omega), hlast, drop_eq_byteAt_cons (by omega), hend, hsync, hstart, List.drop_length]
    simp
  next =>
    split
    next h =>
      obtain ⟨hn, hsync⟩ := h
      have hend : b.length - 1 + 1 = b.length := by omega
      rw [drop_eq_byteAt_cons (by omega), hend, hsync, List.drop_length]
      simp
    next => simp

/-- What FRAME.DECODE leaves after `Incomplete` is in trimmed form (R86 (c)). -/
theorem trimmed_of_incomplete {b : List Byte} (h : (decodeFrame b).status = .incomplete) :
    Trimmed (b.drop (decodeFrame b).consumed) := by
  rcases decodeFrame_cases b with
    ⟨-, e⟩ | ⟨p, hp, ⟨hshort, e⟩ | ⟨-, -, e⟩ | ⟨-, hlegal, hshort, e⟩ | ⟨-, -, -, e⟩ | ⟨-, -, -, e⟩⟩ <;> rw [e] at h ⊢
  case inl =>
    have hkept := drop_keptSuffix b
    simp only [List.mem_cons, List.not_mem_nil, or_false] at hkept
    exact hkept.imp_right (Or.imp_right Or.inl)
  case inr.inl =>
    refine .inr (.inr (.inr ⟨(findMarker_eq_some.mp hp).1, .inl ?_⟩))
    rwa [List.length_drop]
  case inr.inr.inr.inl =>
    refine .inr (.inr (.inr ⟨(findMarker_eq_some.mp hp).1, .inr ?_⟩))
    rw [halfAt_drop, List.length_drop]
    exact ⟨hlegal, hshort⟩
  all_goals exact nomatch h

/-- A buffer in trimmed form is shorter than the longest frame (R27 (c)). -/
theorem Trimmed.length_le {b : List Byte} (h : Trimmed b) : b.length ≤ 1035 := by
  rcases h with rfl | rfl | rfl | ⟨-, hshort | ⟨hlegal, hshort⟩⟩
  · simp
  · simp
  · simp
  · change b.length < 10 at hshort
    omega
  · change (halfAt b 8).toNat ≤ 1024 at hlegal
    change b.length < 12 + (halfAt b 8).toNat at hshort
    omega

end Sys2Proof.Machine
end

section
/-! SUPPORT. Everything an instruction that answers a next state can have done, said once for all thirteen rows; what
every step keeps follows from one lemma on it (R18, R45). -/

namespace Sys2Proof.Machine

/-- `Effect s i t`: a way for the instruction `i` to lead from `s` to `t`, one constructor per outcome of the
instruction's rule. -/
inductive Effect (s : State) : Instr → State → Prop
  /-- R63. -/
  | crc16Compute (data : List Byte) (length : Nat) (seed : Half) :
    Effect s (.crc16Compute data length seed) (s.complete (crcResponse data length seed))
  /-- R71. -/
  | frameEncode (c c1 c2 c3 tgt : Byte) (p : List Byte) :
    Effect s (.frameEncode c c1 c2 c3 tgt p) (s.complete (encodeResponse c c1 c2 c3 tgt p))
  /-- R84. -/
  | frameDecode (b : List Byte) : Effect s (.frameDecode b) (s.complete (decodeResponse b))
  /-- R100: a send after a short write. -/
  | sendAfterFault (c c1 c2 c3 tgt : Byte) (p : List Byte) (hfault : s.txFault = true) :
    Effect s (.sessionSend c c1 c2 c3 tgt p) (s.complete { status := .writeFailure })
  /-- R100: a payload of more than 1024 bytes. -/
  | sendTooLarge (c c1 c2 c3 tgt : Byte) (p : List Byte) (hfault : s.txFault = false)
      (hlarge : encodeFrame c c1 c2 c3 tgt p = none) :
    Effect s (.sessionSend c c1 c2 c3 tgt p) (s.complete { status := .payloadTooLarge })
  /-- R37: the write hangs. -/
  | sendHangs (c c1 c2 c3 tgt : Byte) (p bytes : List Byte) (hfault : s.txFault = false)
      (henc : encodeFrame c c1 c2 c3 tgt p = some bytes) (hchoice : s.device.writeChoices = []) :
    Effect s (.sessionSend c c1 c2 c3 tgt p) s
  /-- R100: a short write. -/
  | sendShort (c c1 c2 c3 tgt : Byte) (p bytes : List Byte) (n : Nat) (rest : List Nat) (hfault : s.txFault = false)
      (henc : encodeFrame c c1 c2 c3 tgt p = some bytes) (hchoice : s.device.writeChoices = n :: rest)
      (hshort : n < bytes.length) :
    Effect s (.sessionSend c c1 c2 c3 tgt p)
      (({ s with txline := s.txline ++ bytes.take n, device := { s.device with writeChoices := rest },
                 txFault := true } : State).complete { status := .writeFailure })
  /-- R100: the whole frame is accepted. -/
  | sendWhole (c c1 c2 c3 tgt : Byte) (p bytes : List Byte) (n : Nat) (rest : List Nat) (hfault : s.txFault = false)
      (henc : encodeFrame c c1 c2 c3 tgt p = some bytes) (hchoice : s.device.writeChoices = n :: rest)
      (hwhole : bytes.length ≤ n) :
    Effect s (.sessionSend c c1 c2 c3 tgt p)
      (({ s with txline := s.txline ++ bytes, device := { s.device with writeChoices := rest } } : State).complete
        { status := .ok })
  /-- R101. -/
  | rxStart (hstate : s.rxState = .idle) :
    Effect s .rxStart (({ s with rxState := .reading } : State).complete { status := .ok })
  /-- R102. -/
  | sessionShutdown : Effect s .sessionShutdown (({ s with shutdownReq := true } : State).complete { status := .ok })
  /-- R103. -/
  | sessionReset : Effect s .sessionReset (s.sessionReset.complete { status := .ok })
  /-- R90: a shutdown closes the engine. -/
  | readShutdown (hstate : s.rxState = .reading) (hreq : s.shutdownReq = true) (hfree : s.readBlocked = false) :
    Effect s .rxRead (s.close .shutdown)
  /-- R36: the read has not returned. -/
  | readWaits (hstate : s.rxState = .reading) (hreq : s.shutdownReq = false ∨ s.readPending = true)
      (hwait : s.device.returns = false) :
    Effect s .rxRead
      { s with device := { s.device with readChoices := s.device.readChoices.tail }, readPending := true }
  /-- R90: the device has closed. -/
  | readClosed (rest : List ReadChoice) (hstate : s.rxState = .reading) (hreq : s.shutdownReq = false)
      (hchoice : s.device.readChoices = .closed :: rest) :
    Effect s .rxRead (({ s with device := { s.device with readChoices := rest } } : State).close .deviceClosed)
  /-- R90: bytes, at most as many as RXBUF has room for. -/
  | readBytes (n : Nat) (rest : List ReadChoice) (hstate : s.rxState = .reading) (hreq : s.shutdownReq = false)
      (hchoice : s.device.readChoices = .upTo n :: rest) :
    Effect s .rxRead
      { s with
        device := { s.device with held := s.device.held.drop (min n s.rxbuf.free), readChoices := rest }
        readPending := false
        rxbuf := s.rxbuf ++ s.device.held.take (min n s.rxbuf.free)
        rxState := .scanning }
  /-- R91. -/
  | rxScan (hstate : s.rxState = .scanning) : Effect s .rxScan (scanBuffer s)
  /-- R92. -/
  | rxDeliver (hstate : s.rxState = .frameDelivered) : Effect s .rxDeliver { s.deliver with rxState := .scanning }
  /-- R93. -/
  | rxWait (hstate : s.rxState = .incomplete) : Effect s .rxWait { s with rxState := .reading }
  /-- R94. -/
  | rxResync (hstate : s.rxState = .corrupt) : Effect s .rxResync { s with rxState := .scanning }
  /-- R54. -/
  | frame (c c1 c2 c3 tgt : Byte) (p : List Byte) (crc : Half) :
    Effect s (.frame c c1 c2 c3 tgt p crc) (s.arrive (frameBytes c c1 c2 c3 tgt p crc))

/-- The outcomes of a SESSION.SEND, in the order of its tests (R100, R118 (c)). -/
theorem effect_of_sessionSend {c c1 c2 c3 tgt : Byte} {p : List Byte} {s t : State}
    (h : execSessionSend c c1 c2 c3 tgt p s = .next t) : Effect s (.sessionSend c c1 c2 c3 tgt p) t := by
  unfold execSessionSend at h
  split at h
  next hfault =>
    cases h
    exact .sendAfterFault c c1 c2 c3 tgt p hfault
  next hfault =>
    rw [Bool.not_eq_true] at hfault
    split at h
    next hlarge =>
      cases h
      exact .sendTooLarge c c1 c2 c3 tgt p hfault hlarge
    next bytes henc =>
      cases h
      rcases writeFrame_cases bytes s with ⟨hchoice, e⟩ | ⟨n, rest, hchoice, hshort, e⟩ | ⟨n, rest, hchoice, hwhole, e⟩ <;>
        rw [e]
      · exact .sendHangs c c1 c2 c3 tgt p bytes hfault henc hchoice
      · exact .sendShort c c1 c2 c3 tgt p bytes n rest hfault henc hchoice hshort
      · exact .sendWhole c c1 c2 c3 tgt p bytes n rest hfault henc hchoice hwhole

/-- The outcomes of an RX.READ (R90, R142). -/
theorem effect_of_rxRead {s t : State} (h : execRxRead s = .next t) : Effect s .rxRead t := by
  obtain ⟨hstate, rfl⟩ := inState_next_iff.mp h
  rcases readDevice_cases s with
    ⟨hreq, hfree, e⟩ | ⟨hreq, hwait, e⟩ | ⟨rest, hreq, hchoice, e⟩ | ⟨n, rest, hreq, hchoice, e⟩ <;> rw [e]
  · exact .readShutdown hstate hreq hfree
  · exact .readWaits hstate hreq hwait
  · exact .readClosed rest hstate hreq hchoice
  · exact .readBytes n rest hstate hreq hchoice

/-- RX.START answers a next state in `Idle` only (R101). -/
theorem effect_of_rxStart {s t : State} (h : execRxStart s = .next t) : Effect s .rxStart t := by
  unfold execRxStart at h
  split at h
  next hstate =>
    cases h
    exact .rxStart hstate
  next => cases h

/-- Everything an instruction that answers a next state can have done. -/
theorem effect_of_exec {i : Instr} {s t : State} (h : exec i s = .next t) : Effect s i t := by
  cases i with
  | crc16Compute data length seed =>
    cases h
    exact .crc16Compute data length seed
  | frameEncode c c1 c2 c3 tgt p =>
    cases h
    exact .frameEncode c c1 c2 c3 tgt p
  | frameDecode b =>
    cases h
    exact .frameDecode b
  | sessionSend c c1 c2 c3 tgt p => exact effect_of_sessionSend h
  | rxStart => exact effect_of_rxStart h
  | sessionShutdown =>
    cases h
    exact .sessionShutdown
  | sessionReset =>
    cases h
    exact .sessionReset
  | rxRead => exact effect_of_rxRead h
  | rxScan =>
    obtain ⟨hstate, rfl⟩ := inState_next_iff.mp h
    exact .rxScan hstate
  | rxDeliver =>
    obtain ⟨hstate, rfl⟩ := inState_next_iff (f := fun s => { s.deliver with rxState := .scanning }).mp h
    exact .rxDeliver hstate
  | rxWait =>
    obtain ⟨hstate, rfl⟩ := inState_next_iff (f := fun s => { s with rxState := .reading }).mp h
    exact .rxWait hstate
  | rxResync =>
    obtain ⟨hstate, rfl⟩ := inState_next_iff (f := fun s => { s with rxState := .scanning }).mp h
    exact .rxResync hstate
  | frame c c1 c2 c3 tgt p crc =>
    cases h
    exact .frame c c1 c2 c3 tgt p crc

/-- `t` has at least the output histories of `s`, in the same order. -/
abbrev HistoriesExtend (s t : State) : Prop := s.delivered <+: t.delivered ∧ s.txline <+: t.txline

/-- Only RX.DELIVER and SESSION.SEND write a history, and both append (R25, R37, R38). -/
theorem Effect.historiesExtend {i : Instr} {s t : State} (h : Effect s i t) : HistoriesExtend s t := by
  cases h with
  | sendShort | sendWhole => exact ⟨List.prefix_rfl, List.prefix_append _ _⟩
  | rxDeliver => exact ⟨List.prefix_append _ _, List.prefix_rfl⟩
  | _ => exact ⟨List.prefix_rfl, List.prefix_rfl⟩

/-- What a used-up turn, an arrival of bytes and every effect keep, every step keeps (R45). -/
theorem step_keeps {P : State → Prop} (turn : ∀ s, P s → P s.takeTurn) (arrive : ∀ s bytes, P s → P (s.arrive bytes))
    (effect : ∀ i s t, P s → Effect s i t → P t) {s t : State} (hs : P s) (h : step s = .next t) : P t := by
  rcases step_cases h with rfl | ⟨_, i, -, -, hexec⟩ | ⟨b, _, -, -, rfl⟩
  · exact turn s hs
  · exact effect i _ t (turn s hs) (effect_of_exec hexec)
  · exact arrive _ b (turn s hs)

end Sys2Proof.Machine
end

section
/-! SUPPORT. The invariant of the block, outcome by outcome (R14, R16, R23, R27). -/

namespace Sys2Proof.Machine

/-- The invariant reads six fields; what leaves them as they are keeps it. -/
theorem State.Inv.congr {s t : State} (hs : s.Inv) (hstate : t.rxState = s.rxState) (hbuf : t.rxbuf = s.rxbuf)
    (hframe : t.rxFrame = s.rxFrame) (hcause : t.closeCause = s.closeCause) (hpending : t.readPending = s.readPending)
    (hdelivered : t.delivered = s.delivered) : t.Inv := by
  refine ⟨?_, ?_, ?_, ?_, ?_, ?_, ?_, ?_⟩ <;> simp only [hstate, hbuf, hframe, hcause, hpending, hdelivered]
  · exact hs.buffer
  · exact hs.trimmed
  · exact hs.idle
  · exact hs.latch
  · exact hs.cause
  · exact hs.pending
  · exact hs.latched
  · exact hs.delivered

theorem State.Inv.takeTurn {s : State} (hs : s.Inv) : s.takeTurn.Inv := hs.congr rfl rfl rfl rfl rfl rfl

theorem State.Inv.arrive {s : State} (hs : s.Inv) (bytes : List Byte) : (s.arrive bytes).Inv :=
  hs.congr rfl rfl rfl rfl rfl rfl

theorem State.Inv.complete {s : State} (hs : s.Inv) (r : Response) : (s.complete r).Inv :=
  hs.congr rfl rfl rfl rfl rfl rfl

theorem State.Inv.setDevice {s : State} (hs : s.Inv) (d : Device) : State.Inv { s with device := d } :=
  hs.congr rfl rfl rfl rfl rfl rfl

/-- The latch is empty outside `FrameDelivered` (R16). -/
theorem State.Inv.rxFrame_eq_none {s : State} (hs : s.Inv) (h : s.rxState ≠ .frameDelivered) : s.rxFrame = none := by
  rw [← Option.not_isSome_iff_eq_none, hs.latch]
  exact h

/-- No cause is latched outside `Closed` (R23). -/
theorem State.Inv.closeCause_eq_none {s : State} (hs : s.Inv) (h : s.rxState ≠ .closed) : s.closeCause = .none :=
  not_not.mp (mt hs.cause.mp h)

/-- No read is pending outside `Reading` (R126). -/
theorem State.Inv.readPending_eq_false {s : State} (hs : s.Inv) (h : s.rxState ≠ .reading) : s.readPending = false :=
  Bool.eq_false_iff.mpr (mt hs.pending h)

/-- In the states between `Idle` and `Closed` without a latched Frame, the invariant asks only for the clauses on RXBUF,
the pending read and the delivered Frames. -/
theorem State.Inv.of_receiving {t : State} (hidle : t.rxState ≠ .idle) (hlatched : t.rxState ≠ .frameDelivered)
    (hclosed : t.rxState ≠ .closed) (hframe : t.rxFrame = none) (hcause : t.closeCause = .none)
    (hbuf : Memory.wf t.rxbuf) (htrim : t.rxState = .reading ∨ t.rxState = .incomplete → Trimmed t.rxbuf)
    (hpending : t.readPending = true → t.rxState = .reading) (hdelivered : ∀ f ∈ t.delivered, f.Valid) : t.Inv where
  buffer := hbuf
  trimmed h := htrim (h.imp_right (Or.resolve_right · hclosed))
  idle h := absurd h hidle
  latch := by simp [hframe, hlatched]
  cause := by simp [hcause, hclosed]
  pending := hpending
  latched := by simp [hframe]
  delivered := hdelivered

/-- The engine closes from `Reading` (R89): RXBUF stays as it is, in trimmed form. -/
theorem State.Inv.close {s : State} (hs : s.Inv) (hstate : s.rxState = .reading) {c : CloseCause} (hc : c ≠ .none) :
    (s.close c).Inv where
  buffer := hs.buffer
  trimmed _ := hs.trimmed (.inl hstate)
  idle h := nomatch h
  latch := by simp [hs.rxFrame_eq_none (by simp [hstate])]
  cause := by simp [hc]
  pending h := nomatch h
  latched := hs.latched
  delivered := hs.delivered

theorem State.Inv.sessionReset {s : State} (hs : s.Inv) : s.sessionReset.Inv where
  buffer := clear_wf s.rxbuf
  trimmed _ := .inl rfl
  idle _ := rfl
  latch := by simp
  cause := by simp
  pending h := nomatch h
  latched := by simp
  delivered := hs.delivered

theorem State.Inv.rxStart {s : State} (hs : s.Inv) (hstate : s.rxState = .idle) :
    State.Inv { s with rxState := .reading } :=
  .of_receiving nofun nofun nofun (hs.rxFrame_eq_none (by simp [hstate])) (hs.closeCause_eq_none (by simp [hstate]))
    hs.buffer (fun _ => .inl (hs.idle hstate)) (fun _ => rfl) hs.delivered

/-- A read that waits is pending, in `Reading` (R126). -/
theorem State.Inv.readWaits {s : State} (hs : s.Inv) (hstate : s.rxState = .reading) (d : Device) :
    State.Inv { s with device := d, readPending := true } where
  buffer := hs.buffer
  trimmed := hs.trimmed
  idle := hs.idle
  latch := hs.latch
  cause := hs.cause
  pending _ := hstate
  latched := hs.latched
  delivered := hs.delivered

/-- RX.READ appends no more than RXBUF has room for (R27 (a), R90). -/
theorem State.Inv.readBytes {s : State} (hs : s.Inv) (hstate : s.rxState = .reading) (d : Device) {bs : List Byte}
    (hbs : bs.length ≤ s.rxbuf.free) :
    State.Inv { s with device := d, readPending := false, rxbuf := s.rxbuf ++ bs, rxState := .scanning } :=
  .of_receiving nofun nofun nofun (hs.rxFrame_eq_none (by simp [hstate])) (hs.closeCause_eq_none (by simp [hstate]))
    (append_wf hs.buffer hbs) nofun nofun hs.delivered

/-! The scan (R91). -/

@[simp] theorem scanBuffer_rxState (s : State) :
    (scanBuffer s).rxState = verdictState (decodeFrame s.rxbuf).status := rfl
@[simp] theorem scanBuffer_rxbuf (s : State) :
    (scanBuffer s).rxbuf = s.rxbuf.drop (decodeFrame s.rxbuf).consumed := rfl
@[simp] theorem scanBuffer_shutdownReq (s : State) : (scanBuffer s).shutdownReq = s.shutdownReq := rfl
@[simp] theorem scanBuffer_closeCause (s : State) : (scanBuffer s).closeCause = s.closeCause := rfl
@[simp] theorem scanBuffer_txFault (s : State) : (scanBuffer s).txFault = s.txFault := rfl
@[simp] theorem scanBuffer_delivered (s : State) : (scanBuffer s).delivered = s.delivered := rfl
@[simp] theorem scanBuffer_txline (s : State) : (scanBuffer s).txline = s.txline := rfl
@[simp] theorem scanBuffer_readPending (s : State) : (scanBuffer s).readPending = s.readPending := rfl

/-- With the latch empty, a scan leaves in it just what the decoder returned. -/
theorem scanBuffer_rxFrame {s : State} (h : s.rxFrame = none) :
    (scanBuffer s).rxFrame = (decodeFrame s.rxbuf).frame := by
  change (if (decodeFrame s.rxbuf).status = .ok then (decodeFrame s.rxbuf).frame else s.rxFrame) = _
  split
  next => rfl
  next hstatus => rw [h, Option.not_isSome_iff_eq_none.mp (mt decodeFrame_frame_isSome.mp hstatus)]

/-- A verdict selects `FrameDelivered`, `Incomplete` or `Corrupt` (R21 (b)). -/
theorem verdictState_eq_frameDelivered {v : Status} : verdictState v = .frameDelivered ↔ v = .ok := by
  cases v <;> decide

theorem verdictState_eq_incomplete {v : Status} : verdictState v = .incomplete ↔ v = .incomplete := by
  cases v <;> decide

theorem verdictState_ne (v : Status) :
    verdictState v ≠ .idle ∧ verdictState v ≠ .reading ∧ verdictState v ≠ .closed := by
  cases v <;> decide

/-- RX.SCAN: the verdict `Ok` latches a valid Frame, `Incomplete` leaves RXBUF in trimmed form (R14, R16, R27). -/
theorem State.Inv.scanBuffer {s : State} (hs : s.Inv) (hstate : s.rxState = .scanning) : (scanBuffer s).Inv := by
  have hframe := scanBuffer_rxFrame (hs.rxFrame_eq_none (by simp [hstate]))
  have hcause := hs.closeCause_eq_none (by simp [hstate])
  have hpending := hs.readPending_eq_false (by simp [hstate])
  obtain ⟨hidle, hreading, hclosed⟩ := verdictState_ne (decodeFrame s.rxbuf).status
  exact {
    buffer := dropFront_wf _ hs.buffer
    trimmed := fun h => trimmed_of_incomplete <| verdictState_eq_incomplete.mp <|
      (h.resolve_left hreading).resolve_right hclosed
    idle := fun h => absurd h hidle
    latch := by rw [hframe, decodeFrame_frame_isSome, scanBuffer_rxState, verdictState_eq_frameDelivered]
    cause := by simp [hcause, hclosed]
    pending := by simp [hpending]
    latched := hframe ▸ decodeFrame_valid
    delivered := hs.delivered }

/-- RX.DELIVER: the Frame that joins `DELIVERED` is the valid one of the latch (R14). -/
theorem State.Inv.rxDeliver {s : State} (hs : s.Inv) (hstate : s.rxState = .frameDelivered) :
    State.Inv { s.deliver with rxState := .scanning } := by
  have hpending := hs.readPending_eq_false (by simp [hstate])
  refine .of_receiving nofun nofun nofun rfl (hs.closeCause_eq_none (by simp [hstate])) hs.buffer nofun
    (by simp [hpending]) fun f hf => ?_
  rcases List.mem_append.mp hf with hf | hf
  · exact hs.delivered f hf
  · exact hs.latched f (Option.mem_toList.mp hf)

/-- RX.WAIT: RXBUF is in trimmed form already (R93). -/
theorem State.Inv.rxWait {s : State} (hs : s.Inv) (hstate : s.rxState = .incomplete) :
    State.Inv { s with rxState := .reading } :=
  .of_receiving nofun nofun nofun (hs.rxFrame_eq_none (by simp [hstate])) (hs.closeCause_eq_none (by simp [hstate]))
    hs.buffer (fun _ => hs.trimmed (.inr (.inl hstate))) (fun _ => rfl) hs.delivered

theorem State.Inv.rxResync {s : State} (hs : s.Inv) (hstate : s.rxState = .corrupt) :
    State.Inv { s with rxState := .scanning } := by
  have hpending := hs.readPending_eq_false (by simp [hstate])
  exact .of_receiving nofun nofun nofun (hs.rxFrame_eq_none (by simp [hstate])) (hs.closeCause_eq_none (by simp [hstate]))
    hs.buffer nofun (by simp [hpending]) hs.delivered

/-- Every outcome of every instruction keeps the invariant. -/
theorem State.Inv.effect {i : Instr} {s t : State} (hs : s.Inv) (h : Effect s i t) : t.Inv := by
  cases h with
  | crc16Compute | frameEncode | frameDecode | sendAfterFault | sendTooLarge => exact hs.complete _
  | sendHangs => exact hs
  | sendShort | sendWhole | sessionShutdown => exact hs.congr rfl rfl rfl rfl rfl rfl
  | rxStart hstate => exact (hs.rxStart hstate).complete _
  | sessionReset => exact hs.sessionReset.complete _
  | readShutdown hstate => exact hs.close (c := .shutdown) hstate nofun
  | readWaits hstate => exact hs.readWaits hstate _
  | readClosed rest hstate =>
    exact (hs.setDevice { s.device with readChoices := rest }).close (c := .deviceClosed) hstate nofun
  | readBytes n rest hstate => exact hs.readBytes hstate _ (by simp)
  | rxScan hstate => exact hs.scanBuffer hstate
  | rxDeliver hstate => exact hs.rxDeliver hstate
  | rxWait hstate => exact hs.rxWait hstate
  | rxResync hstate => exact hs.rxResync hstate
  | frame => exact hs.arrive _

end Sys2Proof.Machine
end

section
/-! The obligations about the state: the invariant of the block, what every step keeps, and what each operation writes. -/

namespace Sys2Proof.Proofs

open Sys2Proof.Machine

/-- Settles O34: every outcome of every instruction keeps the invariant, and so do the moves of a step that run none. -/
theorem stepKeepsInvariant : Obligations.StepKeepsInvariant := by
  intro s t hs h
  exact step_keeps (fun _ hs => hs.takeTurn) (fun _ bytes hs => hs.arrive bytes) (fun _ _ _ hs he => hs.effect he) hs h

/-- Settles O13, clause by clause from the laws of the decoder. -/
theorem decodeBoundsProgressAndValidity : Obligations.DecodeBoundsProgressAndValidity := fun b =>
  ⟨decodeFrame_status_mem b, decodeFrame_consumed_le b, decodeFrame_frame_isSome, decodeFrame_valid,
    decodeFrame_progress b⟩

/-- Settles O36: in `Reading` RXBUF is in trimmed form, which is shorter than the longest frame. -/
theorem readingAlwaysHasRoom : Obligations.ReadingAlwaysHasRoom := by
  intro s hs hstate
  have hlen : s.rxbuf.length ≤ 1035 := (hs.trimmed (.inl hstate)).length_le
  have hcap := rxCap_ge
  refine ⟨hlen, ?_, ?_⟩ <;> rw [Memory.free] <;> omega

/-- Settles O38: the histories of the first state are kept as the front of the later ones. -/
theorem historiesOnlyGrow : Obligations.HistoriesOnlyGrow := by
  intro s t h
  refine step_keeps (P := HistoriesExtend s) (fun _ hs => hs) (fun _ _ hs => hs) (fun i u v hs he => ?_)
    ⟨List.prefix_rfl, List.prefix_rfl⟩ h
  exact ⟨hs.1.trans he.historiesExtend.1, hs.2.trans he.historiesExtend.2⟩

/-- Settles O39, outcome by outcome: each named update leaves the fields it does not write. -/
theorem writesFollowAccessTable : Obligations.WritesFollowAccessTable := by
  intro i s t h
  cases effect_of_exec h with
  -- none of the eight items
  | crc16Compute | frameEncode | frameDecode | sendAfterFault | sendTooLarge | sendHangs | readWaits | frame => simp
  -- `TXLINE` and `TX_FAULT`
  | sendShort | sendWhole => simp
  -- `SHUTDOWN_REQ`; then all registers and buffers but the histories
  | sessionShutdown | sessionReset => simp
  -- `RX_STATE` and `CLOSE_CAUSE`; then `RX_STATE` and `RXBUF`
  | readShutdown | readClosed | readBytes => simp
  -- `RX_STATE`, `RXBUF` and `RX_FRAME`; then `RX_STATE`, `RX_FRAME` and `DELIVERED`
  | rxScan | rxDeliver => simp
  -- `RX_STATE` alone
  | rxStart | rxWait | rxResync => simp

/-- Settles O40: the only outcomes that write `SHUTDOWN_REQ` or `TX_FAULT` are SESSION.RESET and two that set
one: SESSION.SHUTDOWN and a short write. -/
theorem onlyResetClearsStickyFlags : Obligations.OnlyResetClearsStickyFlags := by
  intro i s t h hreset
  cases effect_of_exec h with
  | sessionReset => exact absurd rfl hreset
  | sessionShutdown => exact ⟨fun _ => rfl, id⟩
  | sendShort => exact ⟨id, fun _ => rfl⟩
  | _ => exact ⟨id, id⟩

/-- Settles O26. -/
theorem sessionResetResult : Obligations.SessionResetResult :=
  ⟨⟨rfl, rfl, rfl, rfl, rfl, rfl, rfl, rfl⟩, fun _ => rfl⟩

/-- Settles O35. -/
theorem resetMeetsInvariant : Obligations.ResetMeetsInvariant where
  buffer := reset_rxbuf_wf
  trimmed _ := .inl rfl
  idle _ := rfl
  latch := by decide
  cause := by decide
  pending h := nomatch h
  latched _ h := nomatch h
  delivered _ h := nomatch h

/-- Settles O49: by the invariant a cause is latched in `Closed`, and only two causes are left. -/
theorem receiveLoopReportsWhyItClosed : Obligations.ReceiveLoopReportsWhyItClosed := by
  intro s c hs h
  obtain ⟨hclosed, hcause⟩ : s.rxState = .closed ∧ s.closeCause = c := by simpa [State.loopResult] using h
  have hne : c ≠ .none := hcause ▸ hs.cause.mpr hclosed
  refine ⟨hclosed, hcause, ?_⟩
  cases c with
  | none => exact absurd rfl hne
  | shutdown => exact .inl rfl
  | deviceClosed => exact .inr rfl

/-- Settles O55, code by code. -/
theorem hostReadsTabledCodes : Obligations.HostReadsTabledCodes := by
  refine ⟨fun s => ⟨rfl, rfl, ?_, ?_⟩, by decide⟩
  · change s.rxState.code.toNat = _
    cases s.rxState <;> rfl
  · change s.closeCause.code.toNat = _
    cases s.closeCause <;> rfl

end Sys2Proof.Proofs
end

section
/-! SUPPORT. The bytes of one frame at the front of a buffer: what the decoder of a buffer and the decoder of the line
read there (R54, R55, R83). -/

namespace Sys2Proof.Machine

/-! Slices and 16-bit fields of a buffer given in pieces (R11, R55). -/

theorem slice_append {pre : List Byte} {i : Nat} (mid post : List Byte) (h : pre.length = i) :
    slice (pre ++ (mid ++ post)) i mid.length = mid := by
  rw [slice, List.drop_left' h, List.take_left]

theorem halfAt_append {pre : List Byte} {i : Nat} (v : Half) (post : List Byte) (h : pre.length = i) :
    halfAt (pre ++ (hiByte v :: loByte v :: post)) i = v := by
  subst h
  simp [halfAt, byteAt]

/-- A field's two bytes are the slice at its index (R55). -/
theorem slice_two {b : List Byte} {i : Nat} (h : i + 2 ≤ b.length) :
    slice b i 2 = [hiByte (halfAt b i), loByte (halfAt b i)] := by
  rw [slice_succ 1 (by omega), slice_succ 0 (by omega), halfAt, hiByte_be16, loByte_be16]
  rfl

/-- The bytes of a buffer that begins with the marker and holds one frame and no more are the frame of the fields read
from it, whatever its CRC field holds (R54, R57). -/
theorem eq_frameBytes {b : List Byte} (hmarker : b.take 3 = Config.preamble)
    (hlen : b.length = 12 + (halfAt b 8).toNat) :
    b = frameBytes (byteAt b 3) (byteAt b 4) (byteAt b 5) (byteAt b 6) (byteAt b 7)
      (slice b 10 (halfAt b 8).toNat) (halfAt b (10 + (halfAt b 8).toNat)) := by
  have hbody := slice_eq_frameBody (b := b) (p := 0) (by simp only [Nat.zero_add]; omega)
  simp only [Nat.zero_add] at hbody
  have hcrc : b.drop (10 + (halfAt b 8).toNat) = slice b (10 + (halfAt b 8).toNat) 2 := by
    rw [slice, List.take_of_length_le]
    rw [List.length_drop]
    omega
  rw [frameBytes, ← hmarker, ← hbody, ← slice_two (by omega), ← hcrc, slice, List.append_assoc]
  calc b = b.take 3 ++ b.drop 3 := (List.take_append_drop 3 b).symm
    _ = b.take 3 ++ ((b.drop 3).take (7 + (halfAt b 8).toNat) ++ b.drop (10 + (halfAt b 8).toNat)) := by
      rw [show 10 + (halfAt b 8).toNat = 3 + (7 + (halfAt b 8).toNat) by omega, ← List.drop_drop,
        List.take_append_drop (7 + (halfAt b 8).toNat)]

/-- Bytes that decode on the line are the bytes of the frame they decode to (R54, R57). -/
theorem decodeLine_ok {b : List Byte} {i : Instr} (h : decodeLine b = .ok i) :
    ∃ c c1 c2 c3 tgt p crc, i = .frame c c1 c2 c3 tgt p crc ∧ b = frameBytes c c1 c2 c3 tgt p crc := by
  unfold decodeLine at h
  dsimp only at h
  split_ifs at h with hmarker hheader hlegal hshort hlong
  cases h
  change ¬ b.length < 12 + _ at hshort
  change ¬ 12 + _ < b.length at hlong
  exact ⟨_, _, _, _, _, _, _, rfl, eq_frameBytes (not_not.mp hmarker) (by omega)⟩

/-! The wire bytes of a Frame at the front of a receive stream (R75). -/

/-- The bytes that put a Frame on the wire (R54). -/
def Frame.wire (f : Frame) : List Byte :=
  frameBytes f.channel f.command1 f.command2 f.command3 f.targetId f.payload f.crc

/-- The bytes of the Frame that the CRC covers (R71). -/
def Frame.body (f : Frame) : List Byte :=
  frameBody f.channel f.command1 f.command2 f.command3 f.targetId f.payload

@[simp] theorem Frame.wire_length (f : Frame) : f.wire.length = 12 + f.payload.length := frameBytes_length ..

@[simp] theorem Frame.body_length (f : Frame) : f.body.length = 7 + f.payload.length := frameBody_length ..

/-- Marker, body, CRC field (R54). -/
theorem Frame.wire_append (f : Frame) (rest : List Byte) :
    f.wire ++ rest = Config.preamble ++ (f.body ++ (hiByte f.crc :: loByte f.crc :: rest)) := by
  simp [Frame.wire, Frame.body, frameBytes]

/-- A valid Frame's `length` field is the length of its payload (R14). -/
theorem Frame.Valid.length_eq {f : Frame} (h : f.Valid) : BitVec.ofNat 16 f.payload.length = f.length := by
  obtain ⟨-, -, -, -, hlen, -⟩ := h
  rw [← hlen, BitVec.ofNat_toNat, BitVec.setWidth_eq]

/-- The CRC field stands behind the payload (R54). -/
theorem halfAt_crc_wire (f : Frame) (rest : List Byte) : halfAt (f.wire ++ rest) (10 + f.payload.length) = f.crc := by
  rw [Frame.wire_append, ← List.append_assoc]
  exact halfAt_append _ _ (by simp; omega)

/-- The fields of a valid Frame stand at their offsets in its wire bytes (R54, R55). -/
theorem frameAt_wire {f : Frame} (h : f.Valid) (rest : List Byte) : frameAt (f.wire ++ rest) 0 f.length = f := by
  obtain ⟨hsync, hstart1, hstart2, -, hlen, -⟩ := h
  have hpayload : slice (f.wire ++ rest) 10 f.payload.length = f.payload := by
    rw [Frame.wire, frameBytes_eq, List.append_assoc, List.append_assoc]
    exact slice_append _ _ rfl
  rw [frameAt, Nat.zero_add, hlen, hpayload, halfAt_crc_wire, ← hsync, ← hstart1, ← hstart2]
  rfl

/-- The marker stands first on the wire (R54). -/
theorem findMarker_wire (f : Frame) (rest : List Byte) : findMarker (f.wire ++ rest) = some 0 :=
  findMarker_eq_some.mpr ⟨rfl, nofun⟩

/-- FRAME.DECODE reads a valid Frame back from the front of its buffer and consumes its bytes and no more (R75). -/
theorem decodeFrame_wire {f : Frame} (h : f.Valid) (rest : List Byte) :
    decodeFrame (f.wire ++ rest) = ⟨.ok, f.wire.length, some f⟩ := by
  have ⟨_, _, _, hlegal, hlen, hcrc⟩ := h
  have hlength : halfAt (f.wire ++ rest) 8 = f.length := by
    rw [← h.length_eq]
    exact be16_hiByte_loByte _
  have hbody : slice (f.wire ++ rest) 3 (7 + f.payload.length) = f.body := by
    rw [Frame.wire_append, ← f.body_length]
    exact slice_append _ _ rfl
  have hmatch : bodyCrc f.body = f.crc := hcrc.symm
  rcases decodeFrame_cases (f.wire ++ rest) with ⟨hnone, -⟩ | ⟨p, hp, outcome⟩
  · rw [findMarker_wire] at hnone
    cases hnone
  · rw [findMarker_wire] at hp
    cases hp
    simp only [Nat.zero_add, hlength, hlen, hbody, halfAt_crc_wire, frameAt_wire h, List.length_append,
      Frame.wire_length] at outcome
    rcases outcome with ⟨hshort, -⟩ | ⟨-, hlong, -⟩ | ⟨-, -, hshort, -⟩ | ⟨-, -, hbad, -⟩ | ⟨-, -, -, e⟩
    · omega
    · exact absurd (hlen ▸ hlegal) (Nat.not_le_of_lt hlong)
    · omega
    · exact absurd hmatch hbad
    · rw [e, Frame.wire_length]

/-! A stream of whole Frames (R86 (g)). -/

/-- Without bytes there is no Frame (R78). -/
@[simp] theorem scanBytes_nil (fuel : Nat) : scanBytes fuel [] = ([], []) := by cases fuel <;> rfl

/-- The first call of a scan takes the Frame at the front (R86 (a)). -/
theorem scanBytes_wire {f : Frame} (h : f.Valid) (fuel : Nat) (rest : List Byte) :
    scanBytes (fuel + 1) (f.wire ++ rest) = (f :: (scanBytes fuel rest).1, (scanBytes fuel rest).2) := by
  rw [scanBytes, decodeFrame_wire h, List.drop_left]
  rfl

/-- A scan with a call for every Frame finds the Frames of a stream in order and leaves nothing. -/
theorem scanBytes_flatMap_wire {fs : List Frame} (h : ∀ f ∈ fs, f.Valid) {fuel : Nat} (hfuel : fs.length ≤ fuel) :
    scanBytes fuel (fs.flatMap Frame.wire) = (fs, []) := by
  induction fs generalizing fuel with
  | nil => exact scanBytes_nil fuel
  | cons f fs ih =>
    obtain ⟨hf, hfs⟩ := List.forall_mem_cons.mp h
    cases fuel with
    | zero => cases hfuel
    | succ fuel => rw [List.flatMap_cons, scanBytes_wire hf, ih hfs (Nat.le_of_succ_le_succ hfuel)]

/-- A stream has at least as many bytes as Frames. -/
theorem length_le_flatMap_wire (fs : List Frame) : fs.length ≤ (fs.flatMap Frame.wire).length := by
  induction fs with
  | nil => exact Nat.le_refl 0
  | cons f fs ih =>
    rw [List.flatMap_cons, List.length_append, Frame.wire_length, List.length_cons]
    omega

end Sys2Proof.Machine
end

section
/-! SUPPORT. An instruction answers exactly its effects: the converse of `effect_of_exec`, and what follows for the send
path and the receive engine (R48). -/

namespace Sys2Proof.Machine

/-! One equation per outcome of the two operations that ask the device (R36, R37). -/

theorem writeFrame_hangs {s : State} (bytes : List Byte) (hchoice : s.device.writeChoices = []) :
    writeFrame bytes s = s := by
  simp [writeFrame, Device.write, hchoice]

theorem writeFrame_short {s : State} {bytes : List Byte} {n : Nat} {rest : List Nat}
    (hchoice : s.device.writeChoices = n :: rest) (hshort : n < bytes.length) :
    writeFrame bytes s =
      ({ s with txline := s.txline ++ bytes.take n, device := { s.device with writeChoices := rest },
                txFault := true } : State).complete { status := .writeFailure } := by
  simp [writeFrame, Device.write, hchoice, hshort, hshort.le, State.transmit]

theorem writeFrame_whole {s : State} {bytes : List Byte} {n : Nat} {rest : List Nat}
    (hchoice : s.device.writeChoices = n :: rest) (hwhole : bytes.length ≤ n) :
    writeFrame bytes s =
      ({ s with txline := s.txline ++ bytes, device := { s.device with writeChoices := rest } } : State).complete
        { status := .ok } := by
  simp [writeFrame, Device.write, hchoice, hwhole, State.transmit]

/-- A SESSION.SEND with neither a sticky fault nor an oversize payload is its one device write (R100). -/
theorem execSessionSend_of_encodeFrame {s : State} {c c1 c2 c3 tgt : Byte} {p bytes : List Byte}
    (hfault : s.txFault = false) (henc : encodeFrame c c1 c2 c3 tgt p = some bytes) :
    execSessionSend c c1 c2 c3 tgt p s = .next (writeFrame bytes s) := by
  rw [execSessionSend, hfault, henc]
  rfl

theorem readDevice_shutdown {s : State} (hreq : s.shutdownReq = true) (hfree : s.readBlocked = false) :
    readDevice s = s.close .shutdown := by
  simp [readDevice, hreq, hfree]

theorem readDevice_waits {s : State} (hreq : s.shutdownReq = false ∨ s.readPending = true)
    (hwait : s.device.returns = false) :
    readDevice s =
      { s with device := { s.device with readChoices := s.device.readChoices.tail }, readPending := true } := by
  have hkeep : (s.shutdownReq && !s.readBlocked) = false := by
    rcases hreq with h | h <;> simp [State.readBlocked, h, hwait]
  rcases read_cases s.device s.rxbuf.free with ⟨-, e⟩ | ⟨_, hreturns, -⟩ | ⟨_, _, hreturns, -⟩
  · rw [readDevice, hkeep, e]
    rfl
  all_goals exact absurd hreturns (by simp [hwait])

theorem readDevice_closed {s : State} {rest : List ReadChoice} (hreq : s.shutdownReq = false)
    (hchoice : s.device.readChoices = .closed :: rest) :
    readDevice s = ({ s with device := { s.device with readChoices := rest } } : State).close .deviceClosed := by
  simp [readDevice, hreq, Device.read, hchoice]

theorem readDevice_bytes {s : State} {n : Nat} {rest : List ReadChoice} (hreq : s.shutdownReq = false)
    (hchoice : s.device.readChoices = .upTo n :: rest) :
    readDevice s =
      { s with
        device := { s.device with held := s.device.held.drop (min n s.rxbuf.free), readChoices := rest }
        readPending := false
        rxbuf := s.rxbuf ++ s.device.held.take (min n s.rxbuf.free)
        rxState := .scanning } := by
  simp [readDevice, hreq, Device.read, hchoice, Memory.append]

/-- Every effect is what the instruction answers. -/
theorem Effect.exec {i : Instr} {s t : State} (h : Effect s i t) : exec i s = .next t := by
  cases h with
  | crc16Compute | frameEncode | frameDecode | sessionShutdown | sessionReset | frame => rfl
  | sendAfterFault c c1 c2 c3 tgt p hfault => exact if_pos hfault
  | sendTooLarge c c1 c2 c3 tgt p hfault hlarge =>
    change execSessionSend c c1 c2 c3 tgt p s = _
    rw [execSessionSend, hfault, hlarge]
    rfl
  | sendHangs c c1 c2 c3 tgt p bytes hfault henc hchoice =>
    exact (execSessionSend_of_encodeFrame hfault henc).trans (congrArg _ (writeFrame_hangs bytes hchoice))
  | sendShort c c1 c2 c3 tgt p bytes n rest hfault henc hchoice hshort =>
    exact (execSessionSend_of_encodeFrame hfault henc).trans (congrArg _ (writeFrame_short hchoice hshort))
  | sendWhole c c1 c2 c3 tgt p bytes n rest hfault henc hchoice hwhole =>
    exact (execSessionSend_of_encodeFrame hfault henc).trans (congrArg _ (writeFrame_whole hchoice hwhole))
  | rxStart hstate => exact if_pos hstate
  | readShutdown hstate hreq hfree => exact inState_next_iff.mpr ⟨hstate, readDevice_shutdown hreq hfree⟩
  | readWaits hstate hreq hwait => exact inState_next_iff.mpr ⟨hstate, readDevice_waits hreq hwait⟩
  | readClosed rest hstate hreq hchoice => exact inState_next_iff.mpr ⟨hstate, readDevice_closed hreq hchoice⟩
  | readBytes n rest hstate hreq hchoice => exact inState_next_iff.mpr ⟨hstate, readDevice_bytes hreq hchoice⟩
  | rxScan hstate => exact inState_pos (f := fun s => .next (scanBuffer s)) hstate
  | rxDeliver hstate => exact inState_pos (f := fun s => .next { s.deliver with rxState := .scanning }) hstate
  | rxWait hstate => exact inState_pos (f := fun s => .next { s with rxState := .reading }) hstate
  | rxResync hstate => exact inState_pos (f := fun s => .next { s with rxState := .scanning }) hstate

/-! The statuses of the commands that touch no state of the block (R107). -/

theorem crcResponse_status_mem (data : List Byte) (length : Nat) (seed : Half) :
    (crcResponse data length seed).status ∈ [Status.ok, .invalidLength] := by
  unfold crcResponse
  split <;> simp

theorem encodeResponse_status_mem (c c1 c2 c3 tgt : Byte) (p : List Byte) :
    (encodeResponse c c1 c2 c3 tgt p).status ∈ [Status.ok, .payloadTooLarge] := by
  unfold encodeResponse
  split <;> simp

/-! The send path and the receive engine (R48). -/

/-- The fields that the send path reads and writes (R37, R100). -/
structure SendPart where
  txFault : Bool
  txline : List Byte
  writeChoices : List Nat
  port : List Command
  response : Option Response

/-- The send path's fields of a state. -/
def State.sendPart (s : State) : SendPart where
  txFault := s.txFault
  txline := s.txline
  writeChoices := s.device.writeChoices
  port := s.port
  response := s.response

/-- A state with other contents of the send path's fields. -/
def State.setSendPart (s : State) (q : SendPart) : State :=
  { s with txFault := q.txFault, txline := q.txline, device := { s.device with writeChoices := q.writeChoices },
           port := q.port, response := q.response }

/-- Writing back what is there changes nothing. -/
theorem setSendPart_sendPart (s : State) : s.setSendPart s.sendPart = s := rfl

/-- The five steps of the receive engine. -/
abbrev engineSteps : List Instr := [.rxRead, .rxScan, .rxDeliver, .rxWait, .rxResync]

/-- An engine step leaves the send path's fields as they are, and does the same whatever they hold. -/
theorem Effect.engine_setSendPart {i : Instr} {s t : State} (hi : i ∈ engineSteps) (h : Effect s i t) :
    t.sendPart = s.sendPart ∧ ∀ q, Effect (s.setSendPart q) i (t.setSendPart q) := by
  cases h with
  | readShutdown hstate hreq hfree => exact ⟨rfl, fun q => .readShutdown hstate hreq hfree⟩
  | readWaits hstate hreq hwait => exact ⟨rfl, fun q => .readWaits hstate hreq hwait⟩
  | readClosed rest hstate hreq hchoice => exact ⟨rfl, fun q => .readClosed rest hstate hreq hchoice⟩
  | readBytes n rest hstate hreq hchoice => exact ⟨rfl, fun q => .readBytes n rest hstate hreq hchoice⟩
  | rxScan hstate => exact ⟨rfl, fun q => .rxScan hstate⟩
  | rxDeliver hstate => exact ⟨rfl, fun q => .rxDeliver hstate⟩
  | rxWait hstate => exact ⟨rfl, fun q => .rxWait hstate⟩
  | rxResync hstate => exact ⟨rfl, fun q => .rxResync hstate⟩
  | _ => simp at hi

/-- A SESSION.SEND writes the send path's fields only, and what it makes of them depends on nothing else. -/
theorem Effect.send_setSendPart {c c1 c2 c3 tgt : Byte} {p : List Byte} {s u : State}
    (h : Effect s (.sessionSend c c1 c2 c3 tgt p) u) :
    u = s.setSendPart u.sendPart ∧
      ∀ r : State, Effect (r.setSendPart s.sendPart) (.sessionSend c c1 c2 c3 tgt p) (r.setSendPart u.sendPart) := by
  cases h with
  | sendAfterFault _ _ _ _ _ _ hfault => exact ⟨rfl, fun r => .sendAfterFault _ _ _ _ _ _ hfault⟩
  | sendTooLarge _ _ _ _ _ _ hfault hlarge => exact ⟨rfl, fun r => .sendTooLarge _ _ _ _ _ _ hfault hlarge⟩
  | sendHangs _ _ _ _ _ _ bytes hfault henc hchoice =>
    exact ⟨rfl, fun r => .sendHangs _ _ _ _ _ _ bytes hfault henc hchoice⟩
  | sendShort _ _ _ _ _ _ bytes n rest hfault henc hchoice hshort =>
    exact ⟨rfl, fun r => .sendShort _ _ _ _ _ _ bytes n rest hfault henc hchoice hshort⟩
  | sendWhole _ _ _ _ _ _ bytes n rest hfault henc hchoice hwhole =>
    exact ⟨rfl, fun r => .sendWhole _ _ _ _ _ _ bytes n rest hfault henc hchoice hwhole⟩

end Sys2Proof.Machine
end

section
/-! SUPPORT. Which instruction a step runs, turn by turn (R45, R105). -/

namespace Sys2Proof.Machine

/-- A step runs the instruction it decodes (R12). -/
theorem step_eq_exec {s : State} {e : Encoded} {i : Instr} (hfetch : fetch s = some e) (hdecode : decode e = .ok i) :
    step s = exec i s.takeTurn := by
  simp only [step, hfetch, hdecode]

/-- The turn of the host or of the engine takes nothing from the line. -/
theorem takeTurn_cons {s : State} {a : Agent} {ts : List Agent} (hturns : s.turns = a :: ts) (ha : a ≠ .device) :
    s.takeTurn = { s with turns := ts } := by
  rw [State.takeTurn, mover_cons hturns, if_neg ha, hturns, List.tail_cons]

/-- The turn of the device takes the next run of bytes from the line. -/
theorem takeTurn_device_cons {s : State} {ts : List Agent} {b : List Byte} {bs : List (List Byte)}
    (hturns : s.turns = .device :: ts) (hline : s.line = b :: bs) :
    s.takeTurn = { s with turns := ts, line := bs } := by
  rw [State.takeTurn, mover_cons hturns, if_pos rfl, hturns, hline, List.tail_cons, List.tail_cons]

/-- What the device presents at its turn is the next run of bytes on the line. -/
theorem fetch_device_cons {s : State} {ts : List Agent} {b : List Byte} {bs : List (List Byte)}
    (hturns : s.turns = .device :: ts) (hline : s.line = b :: bs) : fetch s = some (.line b) := by
  rw [fetch_device (mover_cons hturns), hline]
  rfl

/-- A run of bytes on the line arrives at the device, whether it is one frame or not (R36, R58 (a)). -/
theorem step_of_fetch_line {s : State} {b : List Byte} (hfetch : fetch s = some (.line b)) :
    step s = .next (s.takeTurn.arrive b) := by
  cases hdecode : decode (.line b) with
  | error err => simp only [step, hfetch, hdecode, undecoded]
  | ok i =>
    obtain ⟨c, c1, c2, c3, tgt, p, crc, rfl, rfl⟩ := decodeLine_ok hdecode
    exact step_eq_exec hfetch hdecode

end Sys2Proof.Machine
end

section
/-! The obligations about the streams: what is received and sent, in which order, and what a command or a step does to
it (R34 to R49). -/

namespace Sys2Proof.Proofs

open Sys2Proof.Machine

/-- Settles O18: `len(b) + 1` calls of the decoder are enough for the Frames of the stream. -/
theorem backToBackFramesDecodeInOrder : Obligations.BackToBackFramesDecodeInOrder := fun fs h =>
  scanBytes_flatMap_wire h ((length_le_flatMap_wire fs).trans (Nat.le_succ _))

/-- Settles O37, outcome by outcome. -/
theorem receivedBytesKeepLineOrder : Obligations.ReceivedBytesKeepLineOrder := by
  intro i s t h
  cases effect_of_exec h with
  | readShutdown | readWaits | readClosed => exact ⟨List.prefix_rfl, rfl⟩
  | readBytes n rest => exact ⟨List.prefix_append _ _, by simp⟩
  | rxScan => exact ⟨List.take_append_drop _ _, decodeFrame_consumed_le _, rfl⟩
  | _ => exact ⟨rfl, rfl⟩

/-- Settles O41: the common state has the engine's fields of `t` and the send path's fields of `u`. -/
theorem sendCommutesWithEngineSteps : Obligations.SendCommutesWithEngineSteps := by
  intro c c1 c2 c3 tgt p i s t u hi hengine hsend
  obtain ⟨hkept, hengine⟩ := (effect_of_exec hengine).engine_setSendPart hi
  obtain ⟨hu, hsend⟩ := (effect_of_exec hsend).send_setSendPart
  refine ⟨t.setSendPart u.sendPart, ?_, ?_⟩
  · have hafter := hsend t
    rw [← hkept, setSendPart_sendPart] at hafter
    exact hafter.exec
  · have hafter := hengine u.sendPart
    rw [← hu] at hafter
    exact hafter.exec

/-- Settles O42, outcome by outcome: only the hanging write leaves the command at the port. -/
theorem commandsReturnTheirStatuses : Obligations.CommandsReturnTheirStatuses := by
  rintro i s t ⟨cmd, hcmd⟩ h
  cases effect_of_exec h with
  | sendHangs c c1 c2 c3 tgt p bytes hfault henc hchoice =>
    exact .inl ⟨rfl, hchoice, hfault, c, c1, c2, c3, tgt, p, rfl, (encodeFrame_eq_some.mp henc).1⟩
  | crc16Compute data length seed => exact .inr ⟨_, rfl, rfl, fun _ _ => rfl, crcResponse_status_mem data length seed⟩
  | frameEncode c c1 c2 c3 tgt p =>
    exact .inr ⟨_, rfl, rfl, fun _ _ => rfl, encodeResponse_status_mem c c1 c2 c3 tgt p⟩
  | frameDecode b => exact .inr ⟨_, rfl, rfl, fun _ _ => rfl, decodeFrame_status_mem b⟩
  | sendAfterFault | sendTooLarge => exact .inr ⟨_, rfl, rfl, fun _ _ => rfl, by simp⟩
  | sendShort => exact .inr ⟨_, rfl, rfl, fun _ hne => absurd rfl hne, by simp⟩
  | sendWhole => exact .inr ⟨_, rfl, rfl, fun hne => absurd rfl hne, by simp⟩
  | rxStart | sessionShutdown | sessionReset => exact .inr ⟨_, rfl, rfl, fun hne => absurd rfl hne, rfl⟩
  -- an engine step or a wire frame is no command
  | _ => cases hcmd

/-- Settles O51: a frame and any other run of bytes arrive alike. -/
theorem lineBytesReachTheDevice : Obligations.LineBytesReachTheDevice := by
  intro s ts b bs hturns hline
  rw [step_of_fetch_line (fetch_device_cons hturns hline), takeTurn_device_cons hturns hline]
  rfl

/-- Settles O22: each clause is one outcome of the send. -/
theorem sessionSendResult : Obligations.SessionSendResult := by
  intro c c1 c2 c3 tgt p s
  refine ⟨fun hfault => ?_, fun hfault hlarge => ?_, fun hfault hlegal n rest hchoice => ?_⟩
  · exact (Effect.sendAfterFault c c1 c2 c3 tgt p hfault).exec
  · exact (Effect.sendTooLarge c c1 c2 c3 tgt p hfault (if_pos hlarge)).exec
  · have henc : encodeFrame c c1 c2 c3 tgt p = some _ := encodeFrame_eq_some.mpr ⟨hlegal, rfl⟩
    refine ⟨_, henc, frameBytes_length .., fun hshort => ?_, fun hwhole => ?_⟩
    · exact (Effect.sendShort c c1 c2 c3 tgt p _ n rest hfault henc hchoice hshort).exec
    · exact (Effect.sendWhole c c1 c2 c3 tgt p _ n rest hfault henc hchoice hwhole).exec

/-- Settles O23. -/
theorem sendWaitsWhileWriteHangs : Obligations.SendWaitsWhileWriteHangs :=
  fun c c1 c2 c3 tgt p _ hfault hlegal hchoice =>
    (Effect.sendHangs c c1 c2 c3 tgt p _ hfault (encodeFrame_eq_some.mpr ⟨hlegal, rfl⟩) hchoice).exec

/-- Settles O27: each clause is one outcome of the read. -/
theorem rxReadResult : Obligations.RxReadResult := by
  intro s hstate
  refine ⟨fun hreq hpending => ?_, fun hreq c rest hchoice hc => ?_, fun hreq rest hchoice => ?_,
    fun hreq n rest hchoice => ?_, fun hreq => ⟨fun hchoice => ?_, fun rest hchoice => ?_⟩⟩
  · exact (Effect.readShutdown hstate hreq (by simp [State.readBlocked, hpending])).exec
  · exact (Effect.readShutdown hstate hreq (by simp [State.readBlocked, returns_of_cons hchoice hc])).exec
  · exact (Effect.readClosed rest hstate hreq hchoice).exec
  · exact (Effect.readBytes n rest hstate hreq hchoice).exec
  · have hwaits := (Effect.readWaits hstate hreq (returns_eq_false.mpr (.inl hchoice))).exec
    rwa [hchoice, List.tail_nil, ← hchoice] at hwaits
  · have hwaits := (Effect.readWaits hstate hreq (returns_eq_false.mpr (.inr ⟨rest, hchoice⟩))).exec
    rwa [hchoice] at hwaits

/-- Settles O46, agent by agent. -/
theorem stepRunsDecodedInstruction : Obligations.StepRunsDecodedInstruction := by
  intro s i ts
  refine ⟨fun c cs hturns hport hdecode => ?_, fun hturns hdecode => ?_, fun hturns hdecode => ?_,
    fun b bs hturns hline hdecode => ?_⟩
  · rw [step_eq_exec (by rw [fetch_host (mover_cons hturns), hport]; rfl) hdecode, takeTurn_cons hturns nofun]
  · rw [step_eq_exec (fetch_engine (mover_cons hturns)) hdecode, takeTurn_cons hturns nofun]
  · rw [step_eq_exec (fetch_engine (mover_nil hturns)) hdecode, takeTurn_of_nil hturns]
  · rw [step_eq_exec (fetch_device_cons hturns hline) hdecode, takeTurn_device_cons hturns hline]

end Sys2Proof.Proofs
end

section
/-! SUPPORT. The decoder from the encoder's side: what it answers on a host command with a reserved code, and on the bytes
of one frame (R52, R54, R55, R59). -/

namespace Sys2Proof

open Machine

/-- The codes 0x0 and 0x8 to 0xF select no command, whatever the latches hold (R59). -/
theorem decodeCommand_reserved {c : Command} (h : c.op = 0 ∨ 8 ≤ c.op.toNat) :
    decodeCommand c = .error (.reservedOp c.op) := by
  have hcode : c.op.toNat = 0 ∨ 8 ≤ c.op.toNat := h.imp_left (congrArg BitVec.toNat)
  unfold decodeCommand
  dsimp only
  split
  case h_8 => rfl
  all_goals omega

/-- Bytes that begin with the marker, declare a legal length and hold just so many bytes are the frame of the fields read
from them (R54, R57). -/
theorem decodeLine_complete {b : List Byte} (hmarker : b.take 3 = Config.preamble)
    (hlegal : (halfAt b 8).toNat ≤ 1024) (hlen : b.length = 12 + (halfAt b 8).toNat) :
    decodeLine b =
      .ok (.frame (byteAt b 3) (byteAt b 4) (byteAt b 5) (byteAt b 6) (byteAt b 7) (slice b 10 (halfAt b 8).toNat)
        (halfAt b (10 + (halfAt b 8).toNat))) := by
  have hheader : ¬ b.length < Config.hdrEnd := by
    change ¬ b.length < 10
    omega
  have hshort : ¬ b.length < Config.minFrame + (halfAt b 8).toNat := hlen.not_lt
  have hlong : ¬ b.length > Config.minFrame + (halfAt b 8).toNat := hlen.not_gt
  rw [decodeLine, if_neg (not_not.mpr hmarker), if_neg hheader, if_neg hlegal.not_gt, if_neg hshort, if_neg hlong]

/-- The `length` field of a frame (R54, R55). -/
theorem halfAt_length_frameBytes (c c1 c2 c3 tgt : Byte) (p : List Byte) (crc : Half) :
    halfAt (frameBytes c c1 c2 c3 tgt p crc) 8 = BitVec.ofNat 16 p.length := be16_hiByte_loByte _

/-- The payload field of a frame (R54). -/
theorem slice_payload_frameBytes (c c1 c2 c3 tgt : Byte) (p : List Byte) (crc : Half) :
    slice (frameBytes c c1 c2 c3 tgt p crc) 10 p.length = p := by
  rw [frameBytes_eq]
  exact slice_append _ _ rfl

/-- The CRC field of a frame (R54, R55). -/
theorem halfAt_crc_frameBytes (c c1 c2 c3 tgt : Byte) (p : List Byte) (crc : Half) :
    halfAt (frameBytes c c1 c2 c3 tgt p crc) (10 + p.length) = crc :=
  halfAt_append _ _ (by simp; omega)

/-- The line decoder reads back a frame with a legal length, whatever its CRC field holds (R54, R55). -/
theorem decodeLine_frameBytes (c c1 c2 c3 tgt : Byte) {p : List Byte} (crc : Half) (hlegal : p.length ≤ 1024) :
    decodeLine (frameBytes c c1 c2 c3 tgt p crc) = .ok (.frame c c1 c2 c3 tgt p crc) := by
  have hlength : (halfAt (frameBytes c c1 c2 c3 tgt p crc) 8).toNat = p.length := by
    rw [halfAt_length_frameBytes, BitVec.toNat_ofNat]
    exact Nat.mod_eq_of_lt (by omega)
  rw [decodeLine_complete rfl (hlength.trans_le hlegal) (by rw [hlength, frameBytes_length]), hlength,
    slice_payload_frameBytes, halfAt_crc_frameBytes]
  rfl

/-- The length check of a well-formed wire frame (R56). -/
theorem payload_length_le_of_wellFormed {c c1 c2 c3 tgt : Byte} {p : List Byte} {crc : Half}
    (h : WellFormed (.frame c c1 c2 c3 tgt p crc) = true) : p.length ≤ 1024 := by
  obtain ⟨hlength, -⟩ : frameLengthOk p = true ∧ frameCrcOk c c1 c2 c3 tgt p crc = true := by
    simpa only [WellFormed, Bool.and_eq_true] using h
  exact of_decide_eq_true hlength

end Sys2Proof
end

section
/-! SUPPORT. The two bytes of a 16-bit field, said on numbers (R55). -/

namespace Sys2Proof.Machine

theorem hiByte_ofNat (n : Nat) : hiByte (BitVec.ofNat 16 n) = BitVec.ofNat 8 (n / 256) := by
  apply BitVec.eq_of_toNat_eq
  simp only [hiByte, BitVec.toNat_setWidth, BitVec.toNat_ushiftRight, BitVec.toNat_ofNat, Nat.shiftRight_eq_div_pow]
  omega

theorem loByte_ofNat (n : Nat) : loByte (BitVec.ofNat 16 n) = BitVec.ofNat 8 n := by
  apply BitVec.eq_of_toNat_eq
  simp only [loByte, BitVec.toNat_setWidth, BitVec.toNat_ofNat]
  omega

theorem hiByte_eq_ofNat (v : Half) : hiByte v = BitVec.ofNat 8 (v.toNat / 256) := by
  rw [← hiByte_ofNat, BitVec.ofNat_toNat, BitVec.setWidth_eq]

theorem loByte_eq_ofNat (v : Half) : loByte v = BitVec.ofNat 8 v.toNat := by
  rw [← loByte_ofNat, BitVec.ofNat_toNat, BitVec.setWidth_eq]

end Sys2Proof.Machine
end

section
/-! SUPPORT. Runs of the receive engine, step by step, and the step's share in the way of one wire frame from the device to
the consumer (R88, R90 to R92). -/

namespace Sys2Proof.Machine

/-- A run whose first step answers a next state goes on from there. -/
theorem run_succ_of_step {M : Host.Core} {n : Nat} {s u : M.State} (hstep : M.step s = .next u) :
    M.run (n + 1) s = M.run n u := by
  simp only [Host.Core.run, hstep]

theorem reaches_succ {n : Nat} {s u t : State} (hstep : step s = .next u) (hrun : reaches n u t) :
    reaches (n + 1) s t :=
  (run_succ_of_step (M := Sys2Proof.core) hstep).trans hrun

/-- A run of no step stays where it is. -/
theorem reaches_zero (s : State) : reaches 0 s s := rfl

/-- With no turn left the step is the engine's: the effect of what `RX_STATE` selects (R60, R88). -/
theorem step_of_engine_effect {s t : State} {i : Instr} (hturns : s.turns = [])
    (hselect : decodeEngine s.rxState.code = .ok i) (h : Effect s i t) : step s = .next t := by
  rw [step_eq_exec (fetch_engine (mover_nil hturns)) hselect, takeTurn_of_nil hturns]
  exact h.exec

/-- An answer that covers what the device holds, with room for it in RXBUF, moves all of it (R36, R90). -/
theorem Effect.readAll {s : State} {n : Nat} {rest : List ReadChoice} (hstate : s.rxState = .reading)
    (hreq : s.shutdownReq = false) (hchoice : s.device.readChoices = .upTo n :: rest)
    (hanswer : s.device.held.length ≤ n) (hroom : s.device.held.length ≤ s.rxbuf.free) :
    Effect s .rxRead
      { s with
        device := { s.device with held := [], readChoices := rest }
        readPending := false
        rxbuf := s.rxbuf ++ s.device.held
        rxState := .scanning } := by
  have hread := Effect.readBytes n rest hstate hreq hchoice
  rwa [List.drop_of_length_le (le_min hanswer hroom), List.take_of_length_le (le_min hanswer hroom)] at hread

/-- A scan of a buffer with a valid Frame at its front latches the Frame and drops its bytes (R91). -/
theorem scanBuffer_wire {s : State} {f : Frame} {rest : List Byte} (hf : f.Valid) (hbuf : s.rxbuf = f.wire ++ rest) :
    scanBuffer s = { s with rxbuf := rest, rxFrame := some f, rxState := .frameDelivered } := by
  simp [scanBuffer, hbuf, decodeFrame_wire hf, Memory.dropFront, verdictState]

/-- The Frame of the operands of a send is valid where its length is legal (R14). -/
theorem frameOf_valid (c c1 c2 c3 tgt : Byte) {p : List Byte} (hlegal : p.length ≤ 1024) :
    (frameOf c c1 c2 c3 tgt p).Valid := by
  have hlength : (BitVec.ofNat 16 p.length).toNat = p.length := by
    rw [BitVec.toNat_ofNat]
    exact Nat.mod_eq_of_lt (by omega)
  exact ⟨rfl, rfl, rfl, hlength.trans_le hlegal, hlength, rfl⟩

/-- What FRAME.ENCODE returns are the wire bytes of a valid Frame, that of its operands (R71, R75). -/
theorem encodeFrame_wire {c c1 c2 c3 tgt : Byte} {p bytes : List Byte}
    (h : encodeFrame c c1 c2 c3 tgt p = some bytes) :
    (frameOf c c1 c2 c3 tgt p).Valid ∧ bytes = (frameOf c c1 c2 c3 tgt p).wire := by
  obtain ⟨hlegal, hbytes⟩ := encodeFrame_eq_some.mp h
  exact ⟨frameOf_valid c c1 c2 c3 tgt hlegal, hbytes⟩

/-- An empty RXBUF has room for the longest frame (R9). -/
theorem Frame.Valid.wire_length_le_free {f : Frame} (h : f.Valid) : f.wire.length ≤ Memory.free [] := by
  obtain ⟨-, -, -, hlegal, hlen, -⟩ := h
  change f.length.toNat ≤ 1024 at hlegal
  have hcap := rxCap_ge
  rw [Frame.wire_length, Memory.free, List.length_nil]
  omega

/-- RX.READ, RX.SCAN and RX.DELIVER take a valid Frame that the device holds, and nothing else, to the consumer (R90 to
R92). -/
theorem reaches_delivery {s : State} {f : Frame} {n : Nat} {rest : List ReadChoice} (hf : f.Valid)
    (hstate : s.rxState = .reading) (hbuf : s.rxbuf = []) (hreq : s.shutdownReq = false) (hturns : s.turns = [])
    (hheld : s.device.held = f.wire) (hchoice : s.device.readChoices = .upTo n :: rest) (hanswer : f.wire.length ≤ n) :
    reaches 3 s { s with
      rxState := .scanning
      rxFrame := none
      delivered := s.delivered ++ [f]
      readPending := false
      device := { s.device with held := [], readChoices := rest } } := by
  have hread := Effect.readAll hstate hreq hchoice (hheld ▸ hanswer) (hheld ▸ hbuf ▸ hf.wire_length_le_free)
  refine reaches_succ (step_of_engine_effect hturns (by rw [hstate]; rfl) hread) ?_
  refine reaches_succ (step_of_engine_effect hturns rfl (.rxScan rfl)) ?_
  rw [scanBuffer_wire (rest := []) hf (by simp [hbuf, hheld])]
  refine reaches_succ (step_of_engine_effect hturns rfl (.rxDeliver rfl)) ?_
  rw [← hbuf]
  exact reaches_zero _

end Sys2Proof.Machine
end

section
/-! The obligations about the encodings: what is presented to the block, which instruction it selects, and the way of one
wire frame from the line to the consumer (R52 to R60, R90 to R92). -/

namespace Sys2Proof.Proofs

open Sys2Proof.Machine

/-- Settles O57: a host command and an engine step are read back from their code; a wire frame is read back from its
bytes, since its length is legal. -/
theorem decodeOfEncodeIsIdentity : Obligations.DecodeOfEncodeIsIdentity := by
  intro i hwf
  cases i with
  | crc16Compute | frameEncode | frameDecode | sessionSend | rxStart | sessionShutdown | sessionReset => rfl
  | rxRead | rxScan | rxDeliver | rxWait | rxResync => rfl
  | frame c c1 c2 c3 tgt p crc =>
    exact decodeLine_frameBytes c c1 c2 c3 tgt crc (payload_length_le_of_wellFormed hwf)

/-- Settles O45: the arrival, then the three steps of the engine. -/
theorem wireFrameIsDelivered : Obligations.WireFrameIsDelivered := by
  intro c c1 c2 c3 tgt p bytes s n rest line henc hstate hbuf hframe hreq hturns hline hheld hchoice hanswer
  obtain ⟨hf, rfl⟩ := encodeFrame_wire henc
  refine reaches_succ (step_of_fetch_line (fetch_device_cons hturns hline)) ?_
  rw [takeTurn_device_cons hturns hline]
  have hdelivery := reaches_delivery
    (s := State.arrive { s with turns := [], line := line } (frameOf c c1 c2 c3 tgt p).wire)
    hf hstate hbuf hreq rfl (by simp [hheld]) hchoice hanswer
  rw [← hframe, ← hheld] at hdelivery
  exact hdelivery

/-- Settles O58. -/
theorem encodeOfDecodedFrameIsIdentity : Obligations.EncodeOfDecodedFrameIsIdentity := by
  intro b i h
  obtain ⟨c, c1, c2, c3, tgt, p, crc, rfl, rfl⟩ := decodeLine_ok h
  rfl

/-- Settles O32: each of the five steps first tests that `RX_STATE` selects it. -/
theorem engineStepRefusedOutsideItsState : Obligations.EngineStepRefusedOutsideItsState :=
  fun _ => ⟨fun h => if_neg h, fun h => if_neg h, fun h => if_neg h, fun h => if_neg h, fun h => if_neg h⟩

/-- Settles O50: the refusal is that of the code the decoder rejects. -/
theorem reservedOpIsRefused : Obligations.ReservedOpIsRefused := by
  intro c s ts cs hop
  have hdecode : decode (.command c) = .error (.reservedOp c.op) := decodeCommand_reserved hop
  refine ⟨hdecode, fun hturns hport => ?_⟩
  have hfetch : fetch s = some (.command c) := by
    rw [fetch_host (mover_cons hturns), hport]
    rfl
  simp only [step, hfetch, hdecode, undecoded]

/-- Settles O52: the bytes of a frame in offset order, with its two 16-bit fields taken apart on numbers. -/
theorem frameReachesTheDevice : Obligations.FrameReachesTheDevice := by
  intro c c1 c2 c3 tgt p crc s
  rw [← hiByte_ofNat, ← loByte_ofNat, ← hiByte_eq_ofNat, ← loByte_eq_ofNat, List.append_assoc, ← frameBytes_eq]
  rfl

/-- Settles O53, code by code. -/
theorem hostCommandCodes : Obligations.HostCommandCodes :=
  fun _ => ⟨rfl, rfl, rfl, rfl, rfl, rfl, rfl, fun _ hop => decodeCommand_reserved hop⟩

/-- Settles O54, state by state. -/
theorem rxStateSelectsTheStep : Obligations.RxStateSelectsTheStep := ⟨rfl, rfl, rfl, rfl, rfl, rfl, rfl⟩

/-- Settles O56: the words of codes select by their code; the two runs of bytes are frames of a legal length. -/
theorem tableWordsDecode : Obligations.TableWordsDecode := by
  refine ⟨rfl, rfl, rfl, by decide +kernel, ?_⟩
  exact decodeLine_frameBytes 0x00 0x01 0x02 0x01 0x05 0xAA7C (p := [0x12, 0x34, 0x56, 0x78]) (by decide)

end Sys2Proof.Proofs
end

section
/-! SUPPORT. One data byte in the CRC accumulator: linearity, steps that meet no set top bit, and the table form that
follows from the two (R64 to R66, R68, R70). -/

namespace Sys2Proof.Machine

/-! The tested bit and the mask, said on numbers (R64). -/

theorem getLsbD_15_iff (acc : Half) : acc.getLsbD 15 = true ↔ acc.toNat / 2 ^ 15 = 1 := by
  have htop : acc.getLsbD 15 = decide (2 ^ 15 ≤ acc.toNat) :=
    acc.msb_eq_getLsbD_last.symm.trans acc.msb_eq_decide
  have hlt := acc.isLt
  rw [htop, decide_eq_true_iff]
  omega

theorem and_ffff (n : Nat) : n &&& 0xFFFF = n % 2 ^ 16 := Nat.and_two_pow_sub_one_eq_mod n 16

/-! Linearity of one byte (R68). -/

theorem repeat_crcBit_zero (n : Nat) : Nat.repeat crcBit n 0 = 0 := by
  induction n with
  | zero => rfl
  | succ n ih => exact (congrArg crcBit ih).trans crcBit_zero

@[simp] theorem crcByte_zero : crcByte 0 0 = 0 := repeat_crcBit_zero 8

/-- The accumulator and the byte enter as one word, whose parts can be processed apart. -/
theorem crcByte_xor (acc acc' : Half) (b b' : Byte) :
    crcByte (acc ^^^ acc') (b ^^^ b') = crcByte acc b ^^^ crcByte acc' b' := by
  unfold crcByte
  rw [← repeat_crcBit_xor, BitVec.setWidth_xor, BitVec.shiftLeft_xor_distrib]
  ac_rfl

/-! Steps on an accumulator whose top bits are clear only shift (R64). -/

theorem crcBit_of_top_clear {acc : Half} (h : acc.getLsbD 15 = false) : crcBit acc = acc <<< 1 := by
  rw [crcBit, h]
  rfl

/-- With the upper `n` bits clear the polynomial is not reached in `n` steps. -/
theorem repeat_crcBit_of_upper_clear {n : Nat} {acc : Half} (h : ∀ i, 16 - n ≤ i → acc.getLsbD i = false) :
    Nat.repeat crcBit n acc = acc <<< n := by
  induction n with
  | zero => exact (BitVec.shiftLeft_zero acc).symm
  | succ n ih =>
    have hshift : Nat.repeat crcBit n acc = acc <<< n := ih fun i hi => h i (by omega)
    have htop : (acc <<< n).getLsbD 15 = false := by
      rw [BitVec.getLsbD_shiftLeft, h (15 - n) (by omega), Bool.and_false]
    calc Nat.repeat crcBit (n + 1) acc
      _ = crcBit (acc <<< n) := congrArg crcBit hshift
      _ = acc <<< (n + 1) := by rw [crcBit_of_top_clear htop, BitVec.shiftLeft_add]

/-! The table form (R70). -/

/-- A 16-bit value is its low byte and its high byte in place. -/
theorem loByte_xor_hiByte (v : Half) : (loByte v).setWidth 16 ^^^ ((hiByte v).setWidth 16 <<< 8) = v := by
  apply BitVec.eq_of_getLsbD_eq
  intro i hi
  simp only [loByte, hiByte, BitVec.getLsbD_xor, BitVec.getLsbD_shiftLeft, BitVec.getLsbD_setWidth,
    BitVec.getLsbD_ushiftRight]
  by_cases h : i < 8
  · simp [h, hi]
  · simp [h, hi, show i - 8 < 16 by omega, show i - 8 < 8 by omega, show 8 + (i - 8) = i by omega]

theorem setWidth_loByte_shiftLeft (v : Half) : (loByte v).setWidth 16 <<< 8 = v <<< 8 := by
  apply BitVec.eq_of_getLsbD_eq
  intro i hi
  by_cases h : i < 8
  · simp [h]
  · simp [loByte, h, show i - 8 < 8 by omega, show i - 8 < 16 by omega]

/-- The entry of the table for a byte (R70). -/
theorem crcByte_zero_left (b : Byte) : crcByte 0 b = Nat.repeat crcBit 8 (b.setWidth 16 <<< 8) :=
  congrArg (Nat.repeat crcBit 8) BitVec.zero_xor

/-- Eight steps only shift the low byte of the accumulator; its high byte meets the data byte in the table's index. -/
theorem crcByte_eq_table (acc : Half) (b : Byte) : crcByte acc b = (acc <<< 8) ^^^ crcByte 0 (hiByte acc ^^^ b) := by
  have hlow : Nat.repeat crcBit 8 ((loByte acc).setWidth 16) = acc <<< 8 := by
    rw [repeat_crcBit_of_upper_clear, setWidth_loByte_shiftLeft]
    intro i hi
    rw [BitVec.getLsbD_setWidth, BitVec.getLsbD_of_ge _ i hi, Bool.and_false]
  have hsplit : acc ^^^ b.setWidth 16 <<< 8 =
      (loByte acc).setWidth 16 ^^^ ((hiByte acc ^^^ b).setWidth 16 <<< 8) := by
    rw [BitVec.setWidth_xor, BitVec.shiftLeft_xor_distrib, ← BitVec.xor_assoc, loByte_xor_hiByte]
  rw [crcByte, hsplit, repeat_crcBit_xor, hlow, crcByte_zero_left]

/-- Against its own high byte the accumulator is shifted by a byte, without the polynomial. -/
theorem crcByte_hiByte (acc : Half) : crcByte acc (hiByte acc) = acc <<< 8 := by
  rw [crcByte_eq_table, BitVec.xor_self, show (0#8 : Byte) = 0 from rfl, crcByte_zero]
  exact BitVec.xor_zero

theorem hiByte_shiftLeft (v : Half) : hiByte (v <<< 8) = loByte v := by
  rw [← setWidth_loByte_shiftLeft]
  simpa [be16] using hiByte_be16 (loByte v) 0

/-- An accumulator absorbs its own two bytes, high byte first, to zero. -/
theorem crcByte_own_bytes (acc : Half) : crcByte (crcByte acc (hiByte acc)) (loByte acc) = 0 := by
  have hshift : acc <<< 8 <<< 8 = 0 := by
    rw [← BitVec.shiftLeft_add, BitVec.shiftLeft_eq_zero (by omega)]
    rfl
  rw [crcByte_hiByte, ← hiByte_shiftLeft, crcByte_hiByte, hshift]

end Sys2Proof.Machine
end

section
/-! SUPPORT. The CRC over a sequence: cut in two, one byte longer, over zeros, and over the XOR of two sequences (R63,
R69). -/

namespace Sys2Proof.Machine

/-- The result over the first `k` bytes is the seed for the next `m` (R69 (b)). -/
theorem crc16_add (d : List Byte) (k m : Nat) (seed : Half) :
    crc16 d (k + m) seed = crc16 (d.drop k) m (crc16 d k seed) := by
  rw [crc16, List.take_add, List.foldl_append, crc16, crc16]

/-- Bytes at index `n` and beyond are ignored (R69 (c)). -/
theorem crc16_take (d : List Byte) (n : Nat) (seed : Half) : crc16 (d.take n) n seed = crc16 d n seed := by
  rw [crc16, List.take_take, Nat.min_self, crc16]

/-- A sequence followed by another, each to its end or a given length. -/
theorem crc16_append (a d : List Byte) (n : Nat) (seed : Half) :
    crc16 (a ++ d) (a.length + n) seed = crc16 d n (crc16 a a.length seed) := by
  rw [crc16_add, List.drop_left, ← crc16_take (a ++ d), List.take_left]

/-- One more byte is processed last (R63). -/
theorem crc16_succ {d : List Byte} {i : Nat} (h : i < d.length) (seed : Half) :
    crc16 d (i + 1) seed = crcByte (crc16 d i seed) (byteAt d i) := by
  rw [crc16_add, drop_eq_byteAt_cons h, crc16_cons, crc16_zero]

theorem crc16_replicate_zero (k : Nat) : crc16 (List.replicate k 0) k 0 = 0 := by
  induction k with
  | zero => rfl
  | succ k ih => rw [List.replicate_succ, crc16_cons, crcByte_zero, ih]

theorem crc16_xor {a b : List Byte} (h : a.length = b.length) (seedA seedB : Half) :
    crc16 a a.length seedA ^^^ crc16 b b.length seedB =
      crc16 (List.zipWith (· ^^^ ·) a b) a.length (seedA ^^^ seedB) := by
  induction a generalizing b seedA seedB with
  | nil =>
    obtain rfl : b = [] := List.length_eq_zero_iff.mp h.symm
    rfl
  | cons x a ih =>
    cases b with
    | nil => cases h
    | cons y b =>
      simp only [List.length_cons, List.zipWith_cons_cons, crc16_cons, crcByte_xor]
      exact ih (Nat.succ.inj h) _ _

/-- What CRC16.COMPUTE does: it returns its result, and the command leaves the port (R63, R67). -/
theorem exec_crc16Compute (data : List Byte) (length : Nat) (seed : Half) (s : State) :
    exec (.crc16Compute data length seed) s = .next (s.complete (crcResponse data length seed)) := rfl

end Sys2Proof.Machine
end

section
/-! The obligations about the CRC16 Checksum Unit (R63 to R70). -/

namespace Sys2Proof.Proofs

open Sys2Proof.Machine

/-- Settles O3. -/
theorem crcComputeResult : Obligations.CrcComputeResult := fun data length seed s =>
  ⟨exec_crc16Compute data length seed s, crc16_zero data seed, fun _ hi => crc16_succ hi seed⟩

/-- Settles O4: the first `n` bytes are the first `k` and the `n - k` after them. -/
theorem crcChainsOverPieces : Obligations.CrcChainsOverPieces := by
  intro d k n seed hkn _
  refine ⟨?_, (crc16_take d n seed).symm⟩
  calc crc16 d n seed
    _ = crc16 d (k + (n - k)) seed := by rw [Nat.add_sub_cancel' hkn]
    _ = crc16 (d.drop k) (n - k) (crc16 d k seed) := crc16_add d k (n - k) seed
    _ = crc16 ((d.drop k).take (n - k)) (n - k) (crc16 d k seed) := (crc16_take _ _ _).symm

/-- Settles O5: the zeros give 0, the seed of the rest. -/
theorem crcIgnoresLeadingZerosWithSeedZero : Obligations.CrcIgnoresLeadingZerosWithSeedZero := by
  intro k n d
  have happend := crc16_append (List.replicate k 0) d n 0
  rwa [List.length_replicate, crc16_replicate_zero] at happend

/-- Settles O6: the accumulator after the message absorbs its own two bytes. -/
theorem crcOfMessageWithItsCrcIsZero : Obligations.CrcOfMessageWithItsCrcIsZero := by
  intro m seed
  rw [crc16_append, crc16_cons, crc16_cons, crc16_zero, crcByte_own_bytes]

/-- Settles O7, byte by byte: one byte is linear in the accumulator and the byte together. -/
theorem crcIsLinearOverXor : Obligations.CrcIsLinearOverXor := fun _ _ seedA seedB h => crc16_xor h seedA seedB

/-- Settles O8. -/
theorem crcByteEqualsTableLookup : Obligations.CrcByteEqualsTableLookup := crcByte_eq_table

/-- Settles O1: the test and the mask are those of 16-bit words. -/
theorem crcBitShiftsAndXorsPolynomial : Obligations.CrcBitShiftsAndXorsPolynomial := by
  intro acc
  simp only [crcBit, getLsbD_15_iff, and_ffff]
  split
  · rw [BitVec.toNat_xor, BitVec.toNat_shiftLeft, Nat.xor_mod_two_pow]
    rfl
  · exact BitVec.toNat_shiftLeft

/-- Settles O2: the shifted byte fits in 16 bits, so the one XOR is that of the numbers. -/
theorem crcByteXorsThenStepsEightTimes : Obligations.CrcByteXorsThenStepsEightTimes := by
  intro acc b
  refine ⟨acc ^^^ b.setWidth 16 <<< 8, ?_, rfl⟩
  have hb := b.isLt
  have hfits : (b.setWidth 16 <<< 8).toNat = b.toNat <<< 8 := by
    simp only [BitVec.toNat_shiftLeft, BitVec.toNat_setWidth, Nat.shiftLeft_eq]
    omega
  rw [BitVec.toNat_xor, hfits]

end Sys2Proof.Proofs
end

section
/-! SUPPORT. What FRAME.ENCODE and FRAME.DECODE return as commands, and the fields of an encoded frame, said on numbers
and on its CRC range (R54, R55, R71 to R73). -/

namespace Sys2Proof.Machine

/-! The two codec commands (R71, R84). -/

/-- What FRAME.ENCODE does: it returns its result, and the command leaves the port (R71). -/
theorem exec_frameEncode (c c1 c2 c3 tgt : Byte) (p : List Byte) (s : State) :
    exec (.frameEncode c c1 c2 c3 tgt p) s = .next (s.complete (encodeResponse c c1 c2 c3 tgt p)) := rfl

/-- What FRAME.DECODE does: it returns its result, and the command leaves the port (R84). -/
theorem exec_frameDecode (b : List Byte) (s : State) :
    exec (.frameDecode b) s = .next (s.complete (decodeResponse b)) := rfl

theorem encodeResponse_of_large {c c1 c2 c3 tgt : Byte} {p : List Byte} (hlarge : 1024 < p.length) :
    encodeResponse c c1 c2 c3 tgt p = { status := .payloadTooLarge } := by
  have hnone : encodeFrame c c1 c2 c3 tgt p = none := if_pos hlarge
  rw [encodeResponse, hnone]

theorem encodeResponse_of_legal {c c1 c2 c3 tgt : Byte} {p : List Byte} (hlegal : p.length ≤ 1024) :
    encodeResponse c c1 c2 c3 tgt p = { status := .ok, value := .bytes (frameOf c c1 c2 c3 tgt p).wire } := by
  have hsome : encodeFrame c c1 c2 c3 tgt p = some (frameOf c c1 c2 c3 tgt p).wire :=
    encodeFrame_eq_some.mpr ⟨hlegal, rfl⟩
  rw [encodeResponse, hsome]

/-- FRAME.DECODE of the wire bytes of a valid Frame and no more returns the Frame (R75). -/
theorem decodeResponse_wire {f : Frame} (h : f.Valid) :
    decodeResponse f.wire = { status := .ok, value := .decoded f.wire.length (some f) } := by
  have hdecode := decodeFrame_wire h []
  rw [List.append_nil] at hdecode
  rw [decodeResponse, hdecode]

/-! The two bytes of a 16-bit field, by shift and mask (R55, R71). -/

theorem hiByte_ofNat_shift_mask (n : Nat) : hiByte (BitVec.ofNat 16 n) = BitVec.ofNat 8 ((n >>> 8) &&& 0xFF) := by
  rw [hiByte_ofNat, Nat.shiftRight_eq_div_pow, Nat.and_two_pow_sub_one_eq_mod _ 8]
  exact BitVec.eq_of_toNat_eq (by simp)

theorem loByte_ofNat_mask (n : Nat) : loByte (BitVec.ofNat 16 n) = BitVec.ofNat 8 (n &&& 0xFF) := by
  rw [loByte_ofNat, Nat.and_two_pow_sub_one_eq_mod _ 8]
  exact BitVec.eq_of_toNat_eq (by simp)

/-! The CRC range of a frame (R71, R73). -/

/-- The CRC of a body is taken over header and payload, with seed 0 (R71). -/
theorem bodyCrc_frameBody (c c1 c2 c3 tgt : Byte) (p : List Byte) :
    bodyCrc (frameBody c c1 c2 c3 tgt p) = crc16 (frameBody c c1 c2 c3 tgt p) (7 + p.length) 0 := by
  rw [bodyCrc, frameBody_length]

/-- Header and payload stand between marker and CRC field (R54). -/
theorem Frame.slice_body_wire (f : Frame) : slice f.wire 3 (7 + f.payload.length) = f.body := by
  rw [← f.body_length, Frame.wire, frameBytes, List.append_assoc]
  exact slice_append _ _ rfl

/-- All that follows the marker is the body and its CRC field, high byte first (R54, R55). -/
theorem Frame.slice_tail_wire (f : Frame) :
    slice f.wire 3 (9 + f.payload.length) = f.body ++ [hiByte f.crc, loByte f.crc] := by
  have hlength : 9 + f.payload.length = (f.body ++ [hiByte f.crc, loByte f.crc]).length := by
    simp
    omega
  rw [hlength, Frame.wire, frameBytes, List.append_assoc]
  exact List.take_length

/-- The residue law: body and CRC field of a valid Frame are a message with its own CRC behind it (R69 (e), R73). -/
theorem Frame.Valid.crc16_tail {f : Frame} (h : f.Valid) :
    crc16 (slice f.wire 3 (9 + f.payload.length)) (9 + f.payload.length) 0 = 0 := by
  have ⟨_, _, _, _, _, hfield⟩ := h
  have hcrc : f.crc = crc16 f.body f.body.length 0 := hfield
  have hlength : 9 + f.payload.length = f.body.length + 2 := by
    rw [f.body_length]
    omega
  rw [f.slice_tail_wire, hlength, hcrc]
  exact Sys2Proof.Proofs.crcOfMessageWithItsCrcIsZero f.body 0

end Sys2Proof.Machine
end

section
/-! The obligations about FRAME.ENCODE (R71 to R75). -/

namespace Sys2Proof.Proofs

open Sys2Proof.Machine

/-- Settles O12: the bytes are the wire bytes of the valid Frame of the operands. -/
theorem encodeThenDecodeGivesOriginalFields : Obligations.EncodeThenDecodeGivesOriginalFields := by
  intro c c1 c2 c3 tgt p s u hlegal
  refine ⟨(frameOf c c1 c2 c3 tgt p).wire, ?_, ?_⟩
  · rw [exec_frameEncode, encodeResponse_of_legal hlegal]
    rfl
  · have hcrc : halfAt (frameOf c c1 c2 c3 tgt p).wire (10 + p.length) = (frameOf c c1 c2 c3 tgt p).crc :=
      halfAt_crc_frameBytes ..
    rw [exec_frameDecode, decodeResponse_wire (frameOf_valid c c1 c2 c3 tgt hlegal), Frame.wire_length, hcrc]
    rfl

/-- Settles O9: the payload's length decides; each 16-bit field is its number taken apart by shift and mask. -/
theorem frameEncodeResult : Obligations.FrameEncodeResult := by
  intro c c1 c2 c3 tgt p s
  dsimp only
  rw [exec_frameEncode, ← hiByte_ofNat_shift_mask, ← loByte_ofNat_mask, ← hiByte_ofNat_shift_mask, ← loByte_ofNat_mask,
    BitVec.ofNat_toNat, BitVec.setWidth_eq]
  split <;> rename_i hlength
  · rw [encodeResponse_of_large hlength]
    rfl
  · have hcrc := bodyCrc_frameBody c c1 c2 c3 tgt p
    rw [frameBody] at hcrc
    rw [encodeResponse_of_legal (Nat.le_of_not_lt hlength), ← hcrc]
    rfl

/-- Settles O10, field by field; the last is the residue law of a valid Frame. -/
theorem encodedFrameShape : Obligations.EncodedFrameShape := by
  intro c c1 c2 c3 tgt p bytes henc
  obtain ⟨hlegal, -⟩ := encodeFrame_eq_some.mp henc
  obtain ⟨hvalid, rfl⟩ := encodeFrame_wire henc
  have hbody : slice (frameOf c c1 c2 c3 tgt p).wire 3 (7 + p.length) = frameBody c c1 c2 c3 tgt p :=
    Frame.slice_body_wire _
  have hhigh : (byteAt (frameOf c c1 c2 c3 tgt p).wire 8).toNat = p.length / 256 := by
    change (hiByte (BitVec.ofNat 16 p.length)).toNat = _
    rw [hiByte_ofNat, BitVec.toNat_ofNat]
    omega
  have hlow : (byteAt (frameOf c c1 c2 c3 tgt p).wire 9).toNat = p.length % 256 := by
    change (loByte (BitVec.ofNat 16 p.length)).toNat = _
    rw [loByte_ofNat, BitVec.toNat_ofNat]
  refine ⟨frameBytes_length .., rfl, rfl, rfl, rfl, rfl, rfl, hhigh, hlow, ?_, fun hfour => ?_,
    slice_payload_frameBytes .., ?_, ?_⟩
  · omega
  · rw [hfour] at hhigh
    change 4 = _ at hhigh
    refine ⟨by omega, BitVec.eq_of_toNat_eq ?_⟩
    rw [hlow]
    change _ = 0
    omega
  · rw [hbody, ← bodyCrc_frameBody]
    exact halfAt_crc_frameBytes ..
  · exact hvalid.crc16_tail

end Sys2Proof.Proofs
end

section
/-! SUPPORT. FRAME.DECODE outcome by outcome: the converse of `decodeFrame_cases`, and the marker and the 16-bit fields
said on bytes and numbers (R55, R77, R84). -/

namespace Sys2Proof.Machine

/-! The marker and the fields, said on bytes and numbers. -/

/-- A marker at an index is its three bytes (R77). -/
theorem markerAt_iff {b : List Byte} {i : Nat} :
    MarkerAt b i ↔ i + 2 < b.length ∧ byteAt b i = 0xFF ∧ byteAt b (i + 1) = 0x55 ∧ byteAt b (i + 2) = 0xAA := by
  have bytes (h : i + 2 < b.length) : (b.drop i).take 3 = [byteAt b i, byteAt b (i + 1), byteAt b (i + 2)] := by
    change slice b i 3 = _
    iterate 3 rw [slice_succ _ (by omega)]
    rfl
  constructor
  · intro h
    have hlt := markerAt_lt h
    simpa [MarkerAt, bytes hlt, hlt] using h
  · rintro ⟨hlt, h0, h1, h2⟩
    rw [MarkerAt, bytes hlt, h0, h1, h2]

/-- A 16-bit value is 256 times its first byte plus its second (R55). -/
theorem toNat_eq_hiByte_loByte (v : Half) : v.toNat = (hiByte v).toNat * 256 + (loByte v).toNat := by
  rw [hiByte_eq_ofNat, loByte_eq_ofNat, BitVec.toNat_ofNat, BitVec.toNat_ofNat]
  omega

theorem toNat_halfAt (b : List Byte) (i : Nat) :
    (halfAt b i).toNat = (byteAt b i).toNat * 256 + (byteAt b (i + 1)).toNat := by
  rw [toNat_eq_hiByte_loByte, halfAt, hiByte_be16, loByte_be16]

/-- The CRC over a slice that lies in the buffer. -/
theorem bodyCrc_slice {b : List Byte} {i n : Nat} (h : i + n ≤ b.length) :
    bodyCrc (slice b i n) = crc16 (slice b i n) n 0 := by
  rw [bodyCrc, slice_length h]

/-! One equation per outcome. -/

theorem decodeFrame_of_noMarker {b : List Byte} (h : findMarker b = none) :
    decodeFrame b = ⟨.incomplete, b.length - keptSuffix b, none⟩ := by
  rw [decodeFrame, h]

section MarkerFirstAt

variable {b : List Byte} {p : Nat}

theorem decodeFrame_of_headerShort (hp : findMarker b = some p) (hshort : b.length - p < 10) :
    decodeFrame b = ⟨.incomplete, p, none⟩ := by
  rw [decodeFrame, hp]
  exact if_pos hshort

theorem decodeFrame_of_lengthIllegal (hp : findMarker b = some p) (hheader : 10 ≤ b.length - p)
    (hillegal : 1024 < (halfAt b (p + 8)).toNat) : decodeFrame b = ⟨.corruptHeader, p + 1, none⟩ := by
  rw [decodeFrame, hp]
  exact (if_neg (Nat.not_lt_of_le hheader)).trans (if_pos hillegal)

theorem decodeFrame_of_frameShort (hp : findMarker b = some p) (hheader : 10 ≤ b.length - p)
    (hlegal : (halfAt b (p + 8)).toNat ≤ 1024) (hshort : b.length - p < 12 + (halfAt b (p + 8)).toNat) :
    decodeFrame b = ⟨.incomplete, p, none⟩ := by
  rw [decodeFrame, hp]
  exact (if_neg (Nat.not_lt_of_le hheader)).trans ((if_neg (Nat.not_lt_of_le hlegal)).trans (if_pos hshort))

/-- A complete candidate with a legal length is decided by its CRC (R82). -/
theorem decodeFrame_of_complete (hp : findMarker b = some p) (hlegal : (halfAt b (p + 8)).toNat ≤ 1024)
    (hlen : 12 + (halfAt b (p + 8)).toNat ≤ b.length - p) :
    decodeFrame b =
      if bodyCrc (slice b (p + 3) (7 + (halfAt b (p + 8)).toNat)) ≠ halfAt b (p + 10 + (halfAt b (p + 8)).toNat) then
        ⟨.checksumMismatch, p + 1, none⟩
      else ⟨.ok, p + 12 + (halfAt b (p + 8)).toNat, some (frameAt b p (halfAt b (p + 8)))⟩ := by
  have hheader : 10 ≤ b.length - p := by omega
  rw [decodeFrame, hp]
  exact (if_neg (Nat.not_lt_of_le hheader)).trans
    ((if_neg (Nat.not_lt_of_le hlegal)).trans (if_neg (Nat.not_lt_of_le hlen)))

theorem decodeFrame_of_crcMismatch (hp : findMarker b = some p) (hlegal : (halfAt b (p + 8)).toNat ≤ 1024)
    (hlen : 12 + (halfAt b (p + 8)).toNat ≤ b.length - p)
    (hcrc : bodyCrc (slice b (p + 3) (7 + (halfAt b (p + 8)).toNat)) ≠ halfAt b (p + 10 + (halfAt b (p + 8)).toNat)) :
    decodeFrame b = ⟨.checksumMismatch, p + 1, none⟩ :=
  (decodeFrame_of_complete hp hlegal hlen).trans (if_pos hcrc)

theorem decodeFrame_of_crcMatch (hp : findMarker b = some p) (hlegal : (halfAt b (p + 8)).toNat ≤ 1024)
    (hlen : 12 + (halfAt b (p + 8)).toNat ≤ b.length - p)
    (hcrc : bodyCrc (slice b (p + 3) (7 + (halfAt b (p + 8)).toNat)) = halfAt b (p + 10 + (halfAt b (p + 8)).toNat)) :
    decodeFrame b = ⟨.ok, p + 12 + (halfAt b (p + 8)).toNat, some (frameAt b p (halfAt b (p + 8)))⟩ :=
  (decodeFrame_of_complete hp hlegal hlen).trans (if_neg (not_not.mpr hcrc))

end MarkerFirstAt

/-- A marker at the front is found there (R77). -/
theorem findMarker_of_front {b : List Byte} (h : b.take 3 = Config.preamble) : findMarker b = some 0 :=
  findMarker_eq_some.mpr ⟨h, nofun⟩

/-- A buffer in trimmed form has nothing to decide and nothing to drop (R86 (b)). -/
theorem Trimmed.decodeFrame_eq {b : List Byte} (h : Trimmed b) : decodeFrame b = ⟨.incomplete, 0, none⟩ := by
  rcases h with rfl | rfl | rfl | ⟨hmarker, hshort⟩
  · rfl
  · rfl
  · rfl
  · have hp := findMarker_of_front hmarker
    by_cases hheader : b.length < 10
    · exact decodeFrame_of_headerShort hp hheader
    · obtain ⟨hlegal, hpart⟩ := hshort.resolve_left hheader
      refine decodeFrame_of_frameShort hp (Nat.le_of_not_lt hheader) ?_ ?_ <;> rw [Nat.zero_add]
      · exact hlegal
      · exact hpart

end Sys2Proof.Machine
end

section
/-! SUPPORT. FRAME.DECODE under bytes dropped from the front and bytes that arrive behind: an answer is that of the first
place where a frame can begin, and a decided candidate stays decided (R78, R86 (f)). -/

namespace Sys2Proof.Machine

/-! Bytes that can begin a frame (R78). -/

/-- As far as they go, the first three bytes are those of the marker. -/
def Candidate (b : List Byte) : Prop := b.take 3 <+: Config.preamble

theorem candidate_of_marker {b : List Byte} (h : b.take 3 = Config.preamble) : Candidate b := by
  rw [Candidate, h]

/-- The beginnings of a marker, and the marker (R78). -/
theorem Candidate.cases {b : List Byte} (h : Candidate b) :
    b = [] ∨ b = [Config.sync] ∨ b = [Config.sync, Config.start1] ∨ b.take 3 = Config.preamble := by
  match b with
  | [] => exact .inl rfl
  | [x] => simpa [Candidate] using h
  | [x, y] => simpa [Candidate] using h
  | x :: y :: z :: rest => simpa [Candidate] using h

/-- Bytes that cannot begin a frame cannot when more arrive. -/
theorem not_candidate_append {b : List Byte} (h : ¬ Candidate b) (t : List Byte) : ¬ Candidate (b ++ t) :=
  fun hc => h (((b.prefix_append t).take 3).trans hc)

/-- Where no frame can begin, the bytes kept are those kept of the rest. -/
theorem keptSuffix_cons {x : Byte} {rest : List Byte} (h : ¬ Candidate (x :: rest)) :
    keptSuffix (x :: rest) = keptSuffix rest := by
  match rest with
  | [] =>
    have hx : x ≠ 255#8 := by simpa [Candidate] using h
    simp [keptSuffix, byteAt, hx]
  | [y] =>
    have hxy : ¬ (x = 255#8 ∧ y = 85#8) := by simpa [Candidate] using h
    simp [keptSuffix, byteAt, hxy]
  | y :: z :: rest => simp [keptSuffix, byteAt]

/-- Where no frame can begin, the search goes on in the rest (R77). -/
theorem findMarker_cons {x : Byte} {rest : List Byte} (h : ¬ Candidate (x :: rest)) :
    findMarker (x :: rest) = (findMarker rest).map (· + 1) :=
  if_neg fun hmarker => h (candidate_of_marker hmarker)

/-! Bytes dropped from the front. -/

@[simp] theorem slice_cons (x : Byte) (b : List Byte) (i n : Nat) : slice (x :: b) (i + 1) n = slice b i n := rfl

@[simp] theorem halfAt_cons (x : Byte) (b : List Byte) (i : Nat) : halfAt (x :: b) (i + 1) = halfAt b i := rfl

theorem frameAt_cons (x : Byte) (b : List Byte) (p : Nat) (n : Half) : frameAt (x :: b) (p + 1) n = frameAt b p n := by
  simp [frameAt, Nat.add_right_comm _ 1, byteAt]

/-- The answer for the same bytes with `k` bytes in front of them that no frame begins with. -/
def Decoded.shift (k : Nat) (r : Decoded) : Decoded := { r with consumed := r.consumed + k }

/-- A byte at which no frame can begin is dropped (R78, R84). -/
theorem decodeFrame_cons {x : Byte} {rest : List Byte} (h : ¬ Candidate (x :: rest)) :
    decodeFrame (x :: rest) = (decodeFrame rest).shift 1 := by
  rcases decodeFrame_cases rest with ⟨hnone, e⟩ | ⟨p, hp, outcome⟩
  · have hkept := (keptSuffix_le rest).1
    rw [e, decodeFrame_of_noMarker (by rw [findMarker_cons h, hnone]; rfl), keptSuffix_cons h, Decoded.shift,
      List.length_cons, Nat.sub_add_comm hkept]
  · have hp' : findMarker (x :: rest) = some (p + 1) := by rw [findMarker_cons h, hp]; rfl
    have hlength : (x :: rest).length - (p + 1) = rest.length - p := by simp
    have hfield (i : Nat) : halfAt (x :: rest) (p + 1 + i) = halfAt rest (p + i) := by
      rw [Nat.add_right_comm, halfAt_cons]
    have hslice (i n : Nat) : slice (x :: rest) (p + 1 + i) n = slice rest (p + i) n := by
      rw [Nat.add_right_comm, slice_cons]
    have hcrc (n : Nat) : halfAt (x :: rest) (p + 1 + 10 + n) = halfAt rest (p + 10 + n) := by
      rw [Nat.add_assoc, hfield, Nat.add_assoc]
    rcases outcome with ⟨hshort, e⟩ | ⟨hheader, hillegal, e⟩ | ⟨hheader, hlegal, hshort, e⟩ |
      ⟨hlen, hlegal, hbad, e⟩ | ⟨hlen, hlegal, hmatch, e⟩ <;> rw [e]
    · exact decodeFrame_of_headerShort hp' (hlength ▸ hshort)
    · exact decodeFrame_of_lengthIllegal hp' (hlength ▸ hheader) (by rwa [hfield])
    · exact decodeFrame_of_frameShort hp' (hlength ▸ hheader) (by rwa [hfield]) (by rwa [hfield, hlength])
    · exact decodeFrame_of_crcMismatch hp' (by rwa [hfield]) (by rwa [hfield, hlength])
        (by rwa [hfield, hslice, hcrc])
    · rw [decodeFrame_of_crcMatch hp' (by rwa [hfield]) (by rwa [hfield, hlength]) (by rwa [hfield, hslice, hcrc]),
        hfield, frameAt_cons, Decoded.shift]
      congr 1
      change _ = p + 12 + _ + 1
      omega

/-- An answer is that of the first place where a frame can begin, whatever arrives behind. -/
theorem decodeFrame_append_eq_shift (b : List Byte) :
    ∃ k, Candidate (b.drop k) ∧ ∀ t, decodeFrame (b ++ t) = (decodeFrame (b.drop k ++ t)).shift k := by
  induction b with
  | nil => exact ⟨0, List.nil_prefix, fun _ => rfl⟩
  | cons x rest ih =>
    by_cases hc : Candidate (x :: rest)
    · exact ⟨0, hc, fun _ => rfl⟩
    · obtain ⟨k, hcand, hshift⟩ := ih
      refine ⟨k + 1, hcand, fun t => ?_⟩
      calc decodeFrame (x :: (rest ++ t))
        _ = (decodeFrame (rest ++ t)).shift 1 := decodeFrame_cons (not_candidate_append hc t)
        _ = ((decodeFrame (rest.drop k ++ t)).shift k).shift 1 := by rw [hshift t]

/-- A buffer in which a frame can begin at the front drops nothing while it is undecided. -/
theorem Candidate.consumed_eq_zero {b : List Byte} (hc : Candidate b) (h : (decodeFrame b).status = .incomplete) :
    (decodeFrame b).consumed = 0 := by
  rcases hc.cases with rfl | rfl | rfl | hmarker
  · rfl
  · rfl
  · rfl
  · rcases decodeFrame_cases b with ⟨hnone, -⟩ | ⟨p, hp, outcome⟩
    · exact absurd hmarker (findMarker_eq_none.mp hnone 0)
    · obtain rfl : 0 = p := Option.some.inj ((findMarker_of_front hmarker).symm.trans hp)
      rcases outcome with ⟨-, e⟩ | ⟨-, -, e⟩ | ⟨-, -, -, e⟩ | ⟨-, -, -, e⟩ | ⟨-, -, -, e⟩ <;> rw [e] at h ⊢
      all_goals cases h

/-! Bytes that arrive behind. -/

theorem byteAt_append_left {b : List Byte} {i : Nat} (t : List Byte) (h : i < b.length) :
    byteAt (b ++ t) i = byteAt b i := List.getD_append _ _ _ _ h

theorem halfAt_append_left {b : List Byte} {i : Nat} (t : List Byte) (h : i + 1 < b.length) :
    halfAt (b ++ t) i = halfAt b i := by
  rw [halfAt, byteAt_append_left t (by omega), byteAt_append_left t h, halfAt]

theorem slice_append_left {b : List Byte} {i n : Nat} (t : List Byte) (h : i + n ≤ b.length) :
    slice (b ++ t) i n = slice b i n := by
  rw [slice, List.drop_append_of_le_length (by omega), List.take_append_of_le_length, slice]
  rw [List.length_drop]
  omega

theorem frameAt_append_left {b : List Byte} {p : Nat} {n : Half} (t : List Byte) (h : p + 12 + n.toNat ≤ b.length) :
    frameAt (b ++ t) p n = frameAt b p n := by
  simp only [frameAt]
  rw [byteAt_append_left t (by omega), byteAt_append_left t (by omega), byteAt_append_left t (by omega),
    byteAt_append_left t (by omega), byteAt_append_left t (by omega), slice_append_left t (by omega),
    halfAt_append_left t (by omega)]

/-- The first marker of a buffer stays the first (R77). -/
theorem findMarker_append {b : List Byte} {p : Nat} (h : findMarker b = some p) (t : List Byte) :
    findMarker (b ++ t) = some p := by
  have inside {i : Nat} (hi : i + 2 < b.length) : MarkerAt (b ++ t) i ↔ MarkerAt b i := by
    change slice (b ++ t) i 3 = _ ↔ slice b i 3 = _
    rw [slice_append_left t hi]
  obtain ⟨hm, hfirst⟩ := findMarker_eq_some.mp h
  have hlt := markerAt_lt hm
  exact findMarker_eq_some.mpr ⟨(inside hlt).mpr hm, fun i hi hmi => hfirst i hi ((inside (by omega)).mp hmi)⟩

/-- A verdict reached is not changed by bytes that arrive later: every byte it rests on is there (R86 (f)). -/
theorem decodeFrame_append_of_decided {b : List Byte} (h : (decodeFrame b).status ≠ .incomplete) (t : List Byte) :
    decodeFrame (b ++ t) = decodeFrame b := by
  rcases decodeFrame_cases b with ⟨-, e⟩ | ⟨p, hp, outcome⟩
  · exact absurd (congrArg Decoded.status e) h
  · have hp' := findMarker_append hp t
    have hlonger : b.length ≤ (b ++ t).length := by simp
    have hlength (hheader : 10 ≤ b.length - p) : halfAt (b ++ t) (p + 8) = halfAt b (p + 8) :=
      halfAt_append_left t (by omega)
    rcases outcome with ⟨-, e⟩ | ⟨hheader, hillegal, e⟩ | ⟨-, -, -, e⟩ | ⟨hlen, hlegal, hbad, e⟩ |
      ⟨hlen, hlegal, hmatch, e⟩
    · exact absurd (congrArg Decoded.status e) h
    · rw [e]
      exact decodeFrame_of_lengthIllegal hp' (by omega) (by rwa [hlength hheader])
    · exact absurd (congrArg Decoded.status e) h
    all_goals
      have hfield := hlength (by omega)
      have hbody := slice_append_left (b := b) (i := p + 3) (n := 7 + (halfAt b (p + 8)).toNat) t (by omega)
      have hcrc := halfAt_append_left (b := b) (i := p + 10 + (halfAt b (p + 8)).toNat) t (by omega)
    · rw [e]
      refine decodeFrame_of_crcMismatch hp' ?_ ?_ ?_ <;> rw [hfield]
      · exact hlegal
      · omega
      · rwa [hbody, hcrc]
    · rw [e, decodeFrame_of_crcMatch hp', hfield, frameAt_append_left t (by omega)]
      all_goals rw [hfield]
      · exact hlegal
      · omega
      · rwa [hbody, hcrc]

/-- What an undecided buffer drops it drops for good: more bytes are read behind what is left (R86 (f)). -/
theorem decodeFrame_append_of_incomplete {b : List Byte} (h : (decodeFrame b).status = .incomplete) (t : List Byte) :
    decodeFrame (b ++ t) =
      (decodeFrame (b.drop (decodeFrame b).consumed ++ t)).shift (decodeFrame b).consumed := by
  obtain ⟨k, hcand, hshift⟩ := decodeFrame_append_eq_shift b
  have hb : decodeFrame b = (decodeFrame (b.drop k)).shift k := by simpa using hshift []
  have hundecided : (decodeFrame (b.drop k)).status = .incomplete := by rwa [hb] at h
  have hconsumed : (decodeFrame b).consumed = k := by
    rw [hb, Decoded.shift, hcand.consumed_eq_zero hundecided, Nat.zero_add]
  rw [hconsumed]
  exact hshift t

end Sys2Proof.Machine
end

section
/-! The obligations about the verdict on one buffer (R84, R86 (b) to (d), (f)). -/

namespace Sys2Proof.Proofs

open Sys2Proof.Machine

/-- Settles O11: each branch is one outcome of the decoder, its tests said on bytes and numbers. -/
theorem frameDecodeResult : Obligations.FrameDecodeResult := by
  intro b s
  constructor
  · intro p hlt h0 h1 h2 hfirst n c
    have hp : findMarker b = some p :=
      findMarker_eq_some.mpr ⟨markerAt_iff.mpr ⟨hlt, h0, h1, h2⟩, fun i hi hm => hfirst i hi (markerAt_iff.mp hm).2⟩
    have hn : (halfAt b (p + 8)).toNat = n := toNat_halfAt b (p + 8)
    have hfield : (halfAt b (p + 10 + n)).toNat =
        (byteAt b (p + 10 + n)).toNat * 256 + (byteAt b (p + 11 + n)).toNat := by
      rw [toNat_halfAt, Nat.add_right_comm (p + 10)]
    clear_value n
    subst hn
    rw [exec_frameDecode, decodeResponse, ← hfield]
    split_ifs with hheader hillegal hshort hcrc
    · rw [decodeFrame_of_headerShort hp hheader]
      rfl
    · rw [decodeFrame_of_lengthIllegal hp (Nat.le_of_not_lt hheader) hillegal]
      rfl
    · rw [decodeFrame_of_frameShort hp (Nat.le_of_not_lt hheader) (Nat.le_of_not_lt hillegal) hshort]
      rfl
    all_goals
      have hcomputed : bodyCrc (slice b (p + 3) (7 + (halfAt b (p + 8)).toNat)) = c := bodyCrc_slice (by omega)
    · rw [decodeFrame_of_crcMismatch hp (Nat.le_of_not_lt hillegal) (Nat.le_of_not_lt hshort)
        fun e => hcrc (by rw [← hcomputed, e])]
      rfl
    · have hmatch : c = halfAt b (p + 10 + (halfAt b (p + 8)).toNat) := BitVec.eq_of_toNat_eq (not_not.mp hcrc)
      rw [decodeFrame_of_crcMatch hp (Nat.le_of_not_lt hillegal) (Nat.le_of_not_lt hshort) (hcomputed.trans hmatch),
        hmatch, BitVec.ofNat_toNat, BitVec.setWidth_eq]
      rfl
  · intro hnone
    have hp : findMarker b = none :=
      findMarker_eq_none.mpr fun i hm => hnone i (markerAt_lt hm) (markerAt_iff.mp hm).2
    dsimp only
    rw [exec_frameDecode, decodeResponse, decodeFrame_of_noMarker hp]
    rfl

/-- Settles O14: what is left is in trimmed form, which bounds its length and leaves nothing to decide. -/
theorem incompleteLeavesTrimmedBuffer : Obligations.IncompleteLeavesTrimmedBuffer := by
  intro b h
  have htrimmed := trimmed_of_incomplete h
  exact ⟨htrimmed.decodeFrame_eq, htrimmed, htrimmed.length_le⟩

/-- Settles O15: with the marker at the front `Incomplete` drops nothing, and would leave a trimmed buffer of 1036
bytes. -/
theorem candidateDecidedWithinMaxFrame : Obligations.CandidateDecidedWithinMaxFrame := by
  intro b hmarker hlen h
  have hleft := (trimmed_of_incomplete h).length_le
  rw [(candidate_of_marker hmarker).consumed_eq_zero h, List.drop_zero] at hleft
  omega

/-- Settles O16: a decided buffer keeps its answer, an undecided one keeps what it has dropped. -/
theorem laterBytesNeverChangeVerdict : Obligations.LaterBytesNeverChangeVerdict := by
  refine fun b t => ⟨fun h => decodeFrame_append_of_decided h t, fun h => ?_⟩
  rw [decodeFrame_append_of_incomplete h t]
  exact Nat.le_add_left _ _

end Sys2Proof.Proofs
end

section
/-! SUPPORT. The Frames of a receive stream, call by call of the decoder, whatever the fuel (R86 (a), (g)). -/

namespace Sys2Proof.Machine

/-! One call. -/

/-- A scan ends at `Incomplete` (R86 (a)). -/
theorem scanBytes_of_incomplete {b : List Byte} (h : (decodeFrame b).status = .incomplete) (fuel : Nat) :
    scanBytes (fuel + 1) b = ([], b.drop (decodeFrame b).consumed) := by
  rw [scanBytes]
  simp only [h]

/-- A decided candidate gives its Frame, if it is one, and the scan goes on behind what it consumes (R86 (a)). -/
theorem scanBytes_of_decided {b : List Byte} (h : (decodeFrame b).status ≠ .incomplete) (fuel : Nat) :
    scanBytes (fuel + 1) b =
      ((decodeFrame b).frame.toList ++ (scanBytes fuel (b.drop (decodeFrame b).consumed)).1,
        (scanBytes fuel (b.drop (decodeFrame b).consumed)).2) := by
  have hframe (hbad : (decodeFrame b).status ≠ .ok) : (decodeFrame b).frame = none :=
    Option.not_isSome_iff_eq_none.mp fun hsome => hbad (decodeFrame_frame_isSome.mp hsome)
  rw [scanBytes]
  split
  next => rfl
  next hstatus => exact absurd hstatus h
  next hok _ => rw [hframe hok]; rfl

/-- A decided candidate leaves fewer bytes (R86 (a)). -/
theorem length_drop_lt_of_decided {b : List Byte} (h : (decodeFrame b).status ≠ .incomplete) :
    (b.drop (decodeFrame b).consumed).length < b.length := by
  have hstatus := decodeFrame_status_mem b
  have hle := decodeFrame_consumed_le b
  obtain ⟨hok, hrejected⟩ := decodeFrame_progress b
  have hpos : 1 ≤ (decodeFrame b).consumed := by
    simp only [List.mem_cons, List.not_mem_nil, or_false] at hstatus
    rcases hstatus with hs | hs | hs | hs
    · exact Nat.le_trans (by omega) (hok hs)
    · exact absurd hs h
    · exact hrejected (.inl hs)
    · exact hrejected (.inr hs)
  rw [List.length_drop]
  omega

/-! The fuel. -/

/-- With a call for every byte and one more, the number of calls allowed does not matter (R86 (a)). -/
theorem scanBytes_eq_scanBytes {m n : Nat} {b : List Byte} (hm : b.length < m) (hn : b.length < n) :
    scanBytes m b = scanBytes n b := by
  induction m generalizing n b with
  | zero => exact absurd hm (Nat.not_lt_zero _)
  | succ m ih =>
    cases n with
    | zero => exact absurd hn (Nat.not_lt_zero _)
    | succ n =>
      by_cases hs : (decodeFrame b).status = .incomplete
      · rw [scanBytes_of_incomplete hs, scanBytes_of_incomplete hs]
      · have hrest := length_drop_lt_of_decided hs
        rw [scanBytes_of_decided hs, scanBytes_of_decided hs, ih (n := n) (by omega) (by omega)]

theorem scanBytes_eq_framesIn {fuel : Nat} {b : List Byte} (h : b.length < fuel) : scanBytes fuel b = framesIn b :=
  scanBytes_eq_scanBytes h (Nat.lt_succ_self _)

theorem framesIn_of_incomplete {b : List Byte} (h : (decodeFrame b).status = .incomplete) :
    framesIn b = ([], b.drop (decodeFrame b).consumed) := scanBytes_of_incomplete h _

theorem framesIn_of_decided {b : List Byte} (h : (decodeFrame b).status ≠ .incomplete) :
    framesIn b =
      ((decodeFrame b).frame.toList ++ (framesIn (b.drop (decodeFrame b).consumed)).1,
        (framesIn (b.drop (decodeFrame b).consumed)).2) := by
  rw [framesIn, scanBytes_of_decided h, scanBytes_eq_framesIn (length_drop_lt_of_decided h)]

/-! The cut. -/

/-- Bytes dropped in front of a stream that the decoder would drop anyway leave its Frames as they are. -/
theorem framesIn_eq_of_shift {b : List Byte} {k : Nat} (h : decodeFrame b = (decodeFrame (b.drop k)).shift k) :
    framesIn b = framesIn (b.drop k) := by
  have hstatus : (decodeFrame b).status = (decodeFrame (b.drop k)).status := by rw [h]; rfl
  have hframe : (decodeFrame b).frame = (decodeFrame (b.drop k)).frame := by rw [h]; rfl
  have hrest : b.drop (decodeFrame b).consumed = (b.drop k).drop (decodeFrame (b.drop k)).consumed := by
    rw [List.drop_drop, Nat.add_comm]
    exact congrArg (fun r => b.drop r.consumed) h
  by_cases hs : (decodeFrame b).status = .incomplete
  · rw [framesIn_of_incomplete hs, framesIn_of_incomplete (hstatus ▸ hs), hrest]
  · rw [framesIn_of_decided hs, framesIn_of_decided (b := b.drop k) (hstatus ▸ hs), hframe, hrest]

/-- A stream cut in two: the bytes left of the first part are read in front of the second (R86 (g)). -/
theorem framesIn_append (b t : List Byte) :
    framesIn (b ++ t) =
      ((framesIn b).1 ++ (framesIn ((framesIn b).2 ++ t)).1, (framesIn ((framesIn b).2 ++ t)).2) := by
  have hdrop : (b ++ t).drop (decodeFrame b).consumed = b.drop (decodeFrame b).consumed ++ t :=
    List.drop_append_of_le_length (decodeFrame_consumed_le b)
  by_cases hs : (decodeFrame b).status = .incomplete
  · have hshift := decodeFrame_append_of_incomplete hs t
    rw [← hdrop] at hshift
    rw [framesIn_of_incomplete hs, framesIn_eq_of_shift hshift, hdrop]
    rfl
  · have hverdict := decodeFrame_append_of_decided hs t
    have hlt := length_drop_lt_of_decided hs
    rw [framesIn_of_decided hs, framesIn_of_decided (hverdict ▸ hs), hverdict, hdrop,
      framesIn_append (b.drop (decodeFrame b).consumed) t, List.append_assoc]
termination_by b.length
decreasing_by exact hlt

end Sys2Proof.Machine
end

section
/-! The obligation about a stream cut into reads (R86 (g)). -/

namespace Sys2Proof.Proofs

open Sys2Proof.Machine

/-- Settles O17, by the decoder's calls on the first part: what it has decided it decides alike in the whole stream. -/
theorem framesIndependentOfStreamCutting : Obligations.FramesIndependentOfStreamCutting := framesIn_append

end Sys2Proof.Proofs
end

section
/-! SUPPORT. A wrong byte in a message changes its CRC, since a step of the CRC loses nothing; and the CRC test of the
decoder is the residue law's (R68, R69 (e), R87). -/

namespace Sys2Proof.Machine

/-! Steps of the CRC are injective. -/

/-- A step loses nothing: the bit shifted out can be read off bit 0, which the polynomial sets (R64). -/
theorem eq_zero_of_crcBit_eq_zero {acc : Half} (h : crcBit acc = 0) : acc = 0 := by
  cases htop : acc.getLsbD 15 with
  | true =>
    have hbit : (crcBit acc).getLsbD 0 = true := by simp [crcBit, htop]
    rw [h] at hbit
    cases hbit
  | false =>
    rw [crcBit_of_top_clear htop] at h
    apply BitVec.eq_of_getLsbD_eq
    intro i hi
    by_cases hlast : i = 15
    · rw [hlast, htop]
      rfl
    · have hshifted : (acc <<< 1).getLsbD (i + 1) = acc.getLsbD i := by
        rw [BitVec.getLsbD_shiftLeft]
        simp [show i + 1 < 16 by omega]
      rw [← hshifted, h]
      simp

/-- A linear step that takes only zero to zero is injective. -/
theorem crcBit_injective : Function.Injective crcBit := by
  intro a b h
  have hxor : crcBit (a ^^^ b) = 0 := by
    rw [crcBit_xor, h]
    exact BitVec.xor_self
  exact BitVec.xor_eq_zero_iff.mp (eq_zero_of_crcBit_eq_zero hxor)

theorem repeat_crcBit_injective (n : Nat) : Function.Injective (Nat.repeat crcBit n) := by
  induction n with
  | zero => exact fun _ _ h => h
  | succ n ih => exact crcBit_injective.comp ih

/-- Before the same byte, different accumulators stay different (R65). -/
theorem crcByte_left_injective (b : Byte) : Function.Injective (crcByte · b) := fun _ _ h =>
  (BitVec.xor_left_inj _).mp (repeat_crcBit_injective 8 h)

theorem hiByte_setWidth_shiftLeft (x : Byte) : hiByte (x.setWidth 16 <<< 8) = x := by
  simpa [be16] using hiByte_be16 x 0

/-- Different bytes make the same accumulator different (R65). -/
theorem crcByte_right_injective (acc : Half) : Function.Injective (crcByte acc) := by
  intro x y h
  have hplaced : x.setWidth 16 <<< 8 = y.setWidth 16 <<< 8 :=
    (BitVec.xor_right_inj _).mp (repeat_crcBit_injective 8 h)
  rw [← hiByte_setWidth_shiftLeft x, hplaced, hiByte_setWidth_shiftLeft]

/-- Before the same bytes, different seeds stay different (R63). -/
theorem crc16_left_injective (d : List Byte) (n : Nat) : Function.Injective (crc16 d n) := by
  induction d generalizing n with
  | nil => exact fun x y h => by simpa using h
  | cons x d ih =>
    cases n with
    | zero => exact fun _ _ h => h
    | succ n => exact (ih n).comp (crcByte_left_injective x)

/-- One wrong byte within the range of the CRC changes it (R87). -/
theorem crc16_set_ne {d : List Byte} {i n : Nat} {y : Byte} (hn : i < n) (hi : i < d.length) (hy : y ≠ byteAt d i)
    (seed : Half) : crc16 (d.set i y) n seed ≠ crc16 d n seed := by
  induction d generalizing i n seed with
  | nil => cases hi
  | cons x d ih =>
    obtain ⟨n, rfl⟩ : ∃ k, n = k + 1 := ⟨n - 1, by omega⟩
    cases i with
    | zero => exact fun h => hy (crcByte_right_injective seed (crc16_left_injective d n h))
    | succ i => exact ih (Nat.lt_of_succ_lt_succ hn) (Nat.lt_of_succ_lt_succ hi) hy (crcByte seed x)

/-! The residue (R69 (e), R73). -/

/-- A message and a 16-bit field behind it leave residue 0 exactly where the field is the CRC of the message. -/
theorem crc16_append_field_eq_zero_iff {m : List Byte} {v seed : Half} :
    crc16 (m ++ [hiByte v, loByte v]) (m.length + 2) seed = 0 ↔ crc16 m m.length seed = v := by
  rw [crc16_append, crc16_cons, crc16_cons, crc16_zero, ← crcByte_own_bytes v, (crcByte_left_injective _).eq_iff,
    (crcByte_left_injective _).eq_iff]

theorem slice_add (b : List Byte) (i m n : Nat) : slice b i (m + n) = slice b i m ++ slice b (i + m) n := by
  rw [slice, List.take_add, List.drop_drop, slice, slice]

/-- The decoder's test of the CRC field is that body and field leave residue 0 (R82). -/
theorem bodyCrc_eq_field_iff {b : List Byte} {i n : Nat} (h : i + n + 2 ≤ b.length) :
    bodyCrc (slice b i n) = halfAt b (i + n) ↔ crc16 (slice b i (n + 2)) (n + 2) 0 = 0 := by
  have hlength : (slice b i n).length = n := slice_length (by omega)
  have hresidue := crc16_append_field_eq_zero_iff (m := slice b i n) (v := halfAt b (i + n)) (seed := 0)
  rw [hlength] at hresidue
  rw [bodyCrc_slice (by omega), slice_add, slice_two h, hresidue]

end Sys2Proof.Machine
end

section
/-! SUPPORT. A buffer with bytes written over: its fields, and the encoded frame with one wrong byte or another length
(R87). -/

namespace Sys2Proof.Machine

/-! Bytes written over. -/

theorem byteAt_set_ne {i j : Nat} (b : List Byte) (y : Byte) (h : i ≠ j) : byteAt (b.set i y) j = byteAt b j := by
  rw [byteAt, List.getD_eq_getElem?_getD, List.getElem?_set_ne h, ← List.getD_eq_getElem?_getD, byteAt]

theorem byteAt_set_self {b : List Byte} {i : Nat} (y : Byte) (h : i < b.length) : byteAt (b.set i y) i = y := by
  rw [byteAt, List.getD_eq_getElem?_getD, List.getElem?_set_self h, Option.getD_some]

theorem halfAt_set_ne {i j : Nat} (b : List Byte) (y : Byte) (h : i ≠ j) (h' : i ≠ j + 1) :
    halfAt (b.set i y) j = halfAt b j := by
  rw [halfAt, byteAt_set_ne b y h, byteAt_set_ne b y h', halfAt]

/-- A field written byte by byte is read back (R55). -/
theorem halfAt_set_field {b : List Byte} {i : Nat} (v : Half) (h : i + 1 < b.length) :
    halfAt ((b.set i (hiByte v)).set (i + 1) (loByte v)) i = v := by
  rw [halfAt, byteAt_set_ne _ _ (by omega), byteAt_set_self _ (by omega), byteAt_set_self _ (by simpa using h),
    be16_hiByte_loByte]

theorem slice_set {i j : Nat} (b : List Byte) (n : Nat) (y : Byte) (h : i ≤ j) :
    slice (b.set j y) i n = (slice b i n).set (j - i) y := by
  rw [slice, List.drop_set, if_neg (Nat.not_lt_of_le h), List.take_set, slice]

theorem byteAt_slice {i j n : Nat} (b : List Byte) (h : j < n) : byteAt (slice b i n) j = byteAt b (i + j) := by
  simp [byteAt, slice, List.getD_eq_getElem?_getD, h]

/-- A byte behind the marker leaves it in place. -/
theorem findMarker_set {b : List Byte} {i : Nat} (y : Byte) (hmarker : b.take 3 = Config.preamble) (h : 3 ≤ i) :
    findMarker (b.set i y) = some 0 := by
  apply findMarker_of_front
  rw [List.take_set_of_le h, hmarker]

theorem flip_bit_ne (x : Byte) {bit : Nat} (hbit : bit < 8) : x ^^^ BitVec.ofNat 8 (2 ^ bit) ≠ x := by
  intro h
  have hzero : BitVec.ofNat 8 (2 ^ bit) = 0 := (BitVec.xor_right_inj x).mp (h.trans BitVec.xor_zero.symm)
  have hmod : 2 ^ bit % 2 ^ 8 = 0 := congrArg BitVec.toNat hzero
  rw [Nat.mod_eq_of_lt (Nat.pow_lt_pow_right (by omega) hbit)] at hmod
  exact (Nat.two_pow_pos bit).ne' hmod

/-! The damaged frame. -/

/-- The `length` field of a frame on the wire (R54). -/
theorem Frame.Valid.halfAt_length {f : Frame} (h : f.Valid) : (halfAt f.wire 8).toNat = f.payload.length := by
  have ⟨_, _, _, _, hlen, _⟩ := h
  rw [← hlen, ← h.length_eq]
  exact congrArg BitVec.toNat (be16_hiByte_loByte _)

/-- A wrong byte outside marker and `length` field leaves a complete candidate with a nonzero residue (R87 (a), (b)). -/
theorem decodeFrame_wire_set {f : Frame} (hf : f.Valid) {i : Nat} {y : Byte} (hmarker : 3 ≤ i) (h8 : i ≠ 8)
    (h9 : i ≠ 9) (hend : i < 12 + f.payload.length) (hy : y ≠ byteAt f.wire i) :
    decodeFrame (f.wire.set i y) = ⟨.checksumMismatch, 1, none⟩ := by
  have ⟨_, _, _, hlegal, hlen, _⟩ := hf
  have hfield : (halfAt (f.wire.set i y) (0 + 8)).toNat = f.payload.length := by
    rw [Nat.zero_add, halfAt_set_ne _ _ h8 h9, hf.halfAt_length]
  have hlength : (f.wire.set i y).length = 12 + f.payload.length := by rw [List.length_set, Frame.wire_length]
  have hresidue : crc16 (slice (f.wire.set i y) 3 (9 + f.payload.length)) (9 + f.payload.length) 0 ≠ 0 := by
    rw [slice_set _ _ _ hmarker]
    refine ne_of_ne_of_eq (crc16_set_ne ?_ ?_ ?_ 0) hf.crc16_tail
    · omega
    · rw [slice_length (by rw [Frame.wire_length]; omega)]
      omega
    · rwa [byteAt_slice _ (by omega), Nat.add_sub_cancel' hmarker]
  apply decodeFrame_of_crcMismatch (findMarker_set y rfl hmarker) <;> rw [hfield]
  · exact hlen ▸ hlegal
  · exact hlength.ge
  · have hcrc := bodyCrc_eq_field_iff (b := f.wire.set i y) (i := 3) (n := 7 + f.payload.length) (by omega)
    rw [show 7 + f.payload.length + 2 = 9 + f.payload.length by omega] at hcrc
    rw [show 0 + 10 + f.payload.length = 3 + (7 + f.payload.length) by omega]
    exact fun h => hresidue (hcrc.mp h)

/-- A frame whose `length` field says more than there is (R87 (c), (d)). -/
theorem decodeFrame_wire_set_length (f : Frame) {n : Half} (hn : f.payload.length < n.toNat) :
    decodeFrame ((f.wire.set 8 (hiByte n)).set 9 (loByte n)) =
      if 1024 < n.toNat then ⟨.corruptHeader, 1, none⟩ else ⟨.incomplete, 0, none⟩ := by
  have hlength : ((f.wire.set 8 (hiByte n)).set 9 (loByte n)).length = 12 + f.payload.length := by
    rw [List.length_set, List.length_set, Frame.wire_length]
  have hfield : halfAt ((f.wire.set 8 (hiByte n)).set 9 (loByte n)) (0 + 8) = n :=
    halfAt_set_field n (by rw [Frame.wire_length]; omega)
  have hp : findMarker ((f.wire.set 8 (hiByte n)).set 9 (loByte n)) = some 0 := findMarker_of_front rfl
  split_ifs with hillegal
  · exact decodeFrame_of_lengthIllegal hp (by omega) (hfield.symm ▸ hillegal)
  · exact decodeFrame_of_frameShort hp (by omega) (by rw [hfield]; omega) (by rw [hfield]; omega)

/-! The all-zero frame (R139, R140). -/

theorem bodyCrc_replicate_zero (k : Nat) : bodyCrc (List.replicate k 0) = 0 := by
  rw [bodyCrc, List.length_replicate]
  exact crc16_replicate_zero k

/-- The CRC of the all-zero header is 0, so that all behind the marker is zero. -/
theorem emptyZeroFrame_wire : (frameOf 0 0 0 0 0 []).wire = Config.preamble ++ List.replicate 9 0 := by
  have hbody : frameBody 0 0 0 0 0 [] = List.replicate 7 0 := rfl
  have hcrc : (frameOf 0 0 0 0 0 []).crc = 0 := by
    simp only [frameOf, hbody, bodyCrc_replicate_zero]
  rw [Frame.wire, hcrc]
  rfl

/-- With the length cleared, two zero bytes of the payload stand where the CRC of an empty frame does. -/
theorem zeroFrame_wire_cleared (k : Nat) :
    ((frameOf 0 0 0 0 0 (List.replicate (k + 2) 0)).wire.set 8 0).set 9 0 =
      (frameOf 0 0 0 0 0 []).wire ++ (List.replicate k 0 ++
        [hiByte (frameOf 0 0 0 0 0 (List.replicate (k + 2) 0)).crc,
          loByte (frameOf 0 0 0 0 0 (List.replicate (k + 2) 0)).crc]) := by
  rw [emptyZeroFrame_wire, Frame.wire, frameBytes_eq]
  rfl

end Sys2Proof.Machine
end

section
/-! The obligations about damaged frames (R87, R139, R140). -/

namespace Sys2Proof.Proofs

open Sys2Proof.Machine

/-- Settles O19: a flipped bit is a wrong byte. -/
theorem singleBitErrorIsChecksumMismatch : Obligations.SingleBitErrorIsChecksumMismatch := by
  intro c c1 c2 c3 tgt p bytes i bit henc hi hbit
  obtain ⟨hvalid, rfl⟩ := encodeFrame_wire henc
  have hend : i < 12 + (frameOf c c1 c2 c3 tgt p).payload.length := by
    change i < 12 + p.length
    omega
  exact decodeFrame_wire_set hvalid (by omega) (by omega) (by omega) hend (flip_bit_ne _ hbit)

/-- Settles O20. -/
theorem inflatedLengthAloneIsCorruptOrIncomplete : Obligations.InflatedLengthAloneIsCorruptOrIncomplete := by
  intro c c1 c2 c3 tgt p bytes n henc hn
  obtain ⟨-, rfl⟩ := encodeFrame_wire henc
  exact decodeFrame_wire_set_length (frameOf c c1 c2 c3 tgt p) hn

/-- Settles O21: the cleared bytes are those of an empty frame, which is valid, and of what is behind it. -/
theorem clearedLengthOfZeroFrameIsAccepted : Obligations.ClearedLengthOfZeroFrameIsAccepted := by
  intro n bytes hn _ henc
  obtain ⟨-, rfl⟩ := encodeFrame_wire henc
  obtain ⟨k, rfl⟩ : ∃ k, n = k + 2 := ⟨n - 2, by omega⟩
  rw [zeroFrame_wire_cleared, decodeFrame_wire (frameOf_valid 0 0 0 0 0 (p := []) (Nat.zero_le _)), Frame.wire_length]
  rfl

end Sys2Proof.Proofs
end

section
/-! SUPPORT. What each step of the receive engine leads to, and runs of the engine left to itself: a scan and what follows
its verdict, until RXBUF holds no decided candidate (R88, R91 to R98). -/

namespace Sys2Proof.Machine

/-! The scan, verdict by verdict (R91). -/

theorem scanBuffer_of_ok {s : State} (h : (decodeFrame s.rxbuf).status = .ok) :
    scanBuffer s =
      { s with
        rxbuf := s.rxbuf.drop (decodeFrame s.rxbuf).consumed
        rxFrame := (decodeFrame s.rxbuf).frame
        rxState := .frameDelivered } := by
  simp [scanBuffer, h, Memory.dropFront, verdictState]

theorem scanBuffer_of_not_ok {s : State} (h : (decodeFrame s.rxbuf).status ≠ .ok) :
    scanBuffer s =
      { s with
        rxbuf := s.rxbuf.drop (decodeFrame s.rxbuf).consumed
        rxState := verdictState (decodeFrame s.rxbuf).status } := by
  simp [scanBuffer, h, Memory.dropFront]

theorem verdictState_eq_corrupt {v : Status} (hok : v ≠ .ok) (hincomplete : v ≠ .incomplete) :
    verdictState v = .corrupt := by
  cases v with
  | ok => exact absurd rfl hok
  | incomplete => exact absurd rfl hincomplete
  | _ => rfl

theorem verdictState_ne_scanning (v : Status) : verdictState v ≠ .scanning := by
  cases v <;> decide

/-- RX.DELIVER appends the Frame it takes from the latch (R92). -/
theorem deliver_of_rxFrame_eq_some {s : State} {f : Frame} (h : s.rxFrame = some f) :
    s.deliver = { s with delivered := s.delivered ++ [f], rxFrame := none } := by
  rw [State.deliver, h, Option.toList_some]

/-! The engine's move (R60, R88, R95). -/

/-- With no turn left and no step selected the engine rests (R95). -/
theorem step_of_noStep {s : State} {code : BitVec 3} (hturns : s.turns = [])
    (hselect : decodeEngine s.rxState.code = .error (.noStep code)) : step s = .next s := by
  simp only [step, fetch_engine (mover_nil hturns), decode, hselect, undecoded, takeTurn_of_nil hturns]

/-- `Idle` and `Closed` select no step (R60, R95). -/
theorem step_of_idle_or_closed {s : State} (hturns : s.turns = []) (h : s.rxState = .idle ∨ s.rxState = .closed) :
    step s = .next s := by
  rcases h with h | h <;> exact step_of_noStep hturns (by rw [h]; rfl)

/-- In every other state one of the five steps is selected (R60). -/
theorem exists_engineStep_of_ne {r : RxState} (hidle : r ≠ .idle) (hclosed : r ≠ .closed) :
    ∃ i ∈ engineSteps, decodeEngine r.code = .ok i := by
  cases r with
  | idle => exact absurd rfl hidle
  | closed => exact absurd rfl hclosed
  | reading => exact ⟨.rxRead, by simp, rfl⟩
  | scanning => exact ⟨.rxScan, by simp, rfl⟩
  | frameDelivered => exact ⟨.rxDeliver, by simp, rfl⟩
  | incomplete => exact ⟨.rxWait, by simp, rfl⟩
  | corrupt => exact ⟨.rxResync, by simp, rfl⟩

/-- Of the five steps only a read that does not return leaves `RX_STATE` as it is (R89, R126). -/
theorem Effect.engine_waits {i : Instr} {s t : State} (hi : i ∈ engineSteps) (h : Effect s i t)
    (hsame : t.rxState = s.rxState) :
    s.rxState = .reading ∧ s.device.returns = false ∧ (s.shutdownReq = false ∨ s.readPending = true) := by
  cases h with
  | readWaits hstate hreq hwait => exact ⟨hstate, hwait, hreq⟩
  | rxScan hstate => exact absurd (hsame.trans hstate) (verdictState_ne_scanning _)
  | readShutdown hstate | readClosed _ hstate | readBytes _ _ hstate => exact nomatch hsame.trans hstate
  | rxDeliver hstate | rxWait hstate | rxResync hstate => exact nomatch hsame.trans hstate
  | _ => simp at hi

/-- With no turn left, a step that leaves `RX_STATE` as it is finds the engine in `Idle`, in `Closed`, or at a read that
does not return (R95, R145). -/
theorem rests_of_step {s t : State} (hturns : s.turns = []) (h : step s = .next t) (hsame : t.rxState = s.rxState) :
    s.rxState = .idle ∨ s.rxState = .closed ∨
      (s.rxState = .reading ∧ s.device.returns = false ∧ (s.shutdownReq = false ∨ s.readPending = true)) := by
  by_cases hidle : s.rxState = .idle
  · exact .inl hidle
  by_cases hclosed : s.rxState = .closed
  · exact .inr (.inl hclosed)
  obtain ⟨i, hi, hselect⟩ := exists_engineStep_of_ne hidle hclosed
  rw [step_eq_exec (fetch_engine (mover_nil hturns)) hselect, takeTurn_of_nil hturns] at h
  exact .inr (.inr ((effect_of_exec h).engine_waits hi hsame))

/-- With no turn left, `Reading` runs RX.READ (R60, R88). -/
theorem step_of_reading {s : State} (hturns : s.turns = []) (hstate : s.rxState = .reading) :
    step s = exec .rxRead s := by
  rw [step_eq_exec (i := .rxRead) (fetch_engine (mover_nil hturns)) (by rw [hstate]; rfl), takeTurn_of_nil hturns]

/-! Runs (R96, R98). -/

/-- A run that comes to a state goes on from there. -/
theorem run_add_of_run {M : Host.Core} {m n : Nat} {s u : M.State} (h : M.run m s = .next u) :
    M.run (n + m) s = M.run n u := by
  induction m generalizing s with
  | zero =>
    cases h
    rfl
  | succ m ih =>
    cases hstep : M.step s with
    | next v =>
      rw [run_succ_of_step hstep] at h
      rw [← Nat.add_assoc, run_succ_of_step hstep, ih h]
    | fault | refused => simp [Host.Core.run, hstep] at h

theorem reaches_add {m n : Nat} {s u t : State} (hfirst : reaches m s u) (hthen : reaches n u t) :
    reaches (n + m) s t :=
  (run_add_of_run (M := Sys2Proof.core) hfirst).trans hthen

section FromScanning

variable {s : State} (hstate : s.rxState = .scanning) (hturns : s.turns = [])

include hstate hturns

/-- After the verdict `Incomplete` the engine reads again (R91, R93). -/
theorem reaches_reading_of_incomplete (h : (decodeFrame s.rxbuf).status = .incomplete) :
    reaches 2 s { s with rxState := .reading, rxbuf := s.rxbuf.drop (decodeFrame s.rxbuf).consumed } := by
  have hscan := Effect.rxScan hstate
  rw [scanBuffer_of_not_ok (by simp [h]), h] at hscan
  refine reaches_succ (step_of_engine_effect hturns (by rw [hstate]; rfl) hscan) ?_
  exact reaches_succ (step_of_engine_effect hturns rfl (.rxWait rfl)) (reaches_zero _)

/-- After any other verdict the engine scans again, with the Frame delivered if there is one (R91, R92, R94). -/
theorem reaches_scanning_of_decided (hframe : s.rxFrame = none) (h : (decodeFrame s.rxbuf).status ≠ .incomplete) :
    reaches 2 s { s with
      rxbuf := s.rxbuf.drop (decodeFrame s.rxbuf).consumed
      delivered := s.delivered ++ (decodeFrame s.rxbuf).frame.toList } := by
  have hscan := Effect.rxScan hstate
  by_cases hok : (decodeFrame s.rxbuf).status = .ok
  · rw [scanBuffer_of_ok hok] at hscan
    refine reaches_succ (step_of_engine_effect hturns (by rw [hstate]; rfl) hscan) ?_
    refine reaches_succ (step_of_engine_effect hturns rfl (.rxDeliver rfl)) ?_
    rw [← hstate, hframe]
    exact reaches_zero _
  · have hnone : (decodeFrame s.rxbuf).frame = none :=
      Option.not_isSome_iff_eq_none.mp (mt decodeFrame_frame_isSome.mp hok)
    rw [scanBuffer_of_not_ok hok, verdictState_eq_corrupt hok h] at hscan
    refine reaches_succ (step_of_engine_effect hturns (by rw [hstate]; rfl) hscan) ?_
    refine reaches_succ (step_of_engine_effect hturns rfl (.rxResync rfl)) ?_
    rw [hnone, Option.toList_none, List.append_nil, ← hstate]
    exact reaches_zero _

end FromScanning

/-- Two steps for each decided candidate, of which each takes a byte at least, and two for the last scan (R96, R98). -/
theorem reaches_reading {s : State} (hstate : s.rxState = .scanning) (hframe : s.rxFrame = none)
    (hturns : s.turns = []) :
    ∃ n ≤ 2 * s.rxbuf.length + 2,
      reaches n s { s with
        rxState := .reading
        rxbuf := (framesIn s.rxbuf).2
        delivered := s.delivered ++ (framesIn s.rxbuf).1 } := by
  by_cases h : (decodeFrame s.rxbuf).status = .incomplete
  · refine ⟨2, by omega, ?_⟩
    rw [framesIn_of_incomplete h, List.append_nil]
    exact reaches_reading_of_incomplete hstate hturns h
  · have hlt := length_drop_lt_of_decided h
    have hround := reaches_scanning_of_decided hstate hturns hframe h
    obtain ⟨n, hn, hrest⟩ := reaches_reading
      (s := { s with
        rxbuf := s.rxbuf.drop (decodeFrame s.rxbuf).consumed
        delivered := s.delivered ++ (decodeFrame s.rxbuf).frame.toList }) hstate hframe hturns
    refine ⟨n + 2, by dsimp only at hn; omega, ?_⟩
    rw [framesIn_of_decided h, ← List.append_assoc]
    exact reaches_add hround hrest
termination_by s.rxbuf.length
decreasing_by exact hlt

end Sys2Proof.Machine
end

section
/-! The obligations about the receive engine: its five steps, its transition table, its runs and its rest (R89 to R98,
R102, R145). -/

namespace Sys2Proof.Proofs

open Sys2Proof.Machine

/-- Settles O33, outcome by outcome: each that changes `RX_STATE` or `CLOSE_CAUSE` is the row it is placed in. -/
theorem transitionTableIsComplete : Obligations.TransitionTableIsComplete := by
  intro i s t h
  cases effect_of_exec h with
  | rxStart hstate => simp [hstate]
  | sessionReset => simp
  | readShutdown hstate hreq => simp [hstate, hreq]
  | readClosed rest hstate hreq hchoice => simp [hstate, hreq, hchoice]
  | readBytes n rest hstate hreq hchoice => simp [hstate, hreq, hchoice]
  | rxScan hstate =>
    have hstatus := decodeFrame_status_mem s.rxbuf
    simp only [List.mem_cons, List.not_mem_nil, or_false] at hstatus
    rcases hstatus with hs | hs | hs | hs <;> simp [hstate, hs, verdictState]
  | rxDeliver hstate => simp [hstate]
  | rxWait hstate => simp [hstate]
  | rxResync hstate => simp [hstate]
  | _ => exact .inl ⟨rfl, rfl⟩

/-- Settles O43. -/
theorem scanningAlwaysReturnsToReading : Obligations.ScanningAlwaysReturnsToReading :=
  fun _ hstate hframe hturns => reaches_reading hstate hframe hturns

/-- Settles O48: at rest `RX_STATE` stays, and only a read that does not return, or no step at all, leaves it. -/
theorem quiescentStatesAreThoseAtRest : Obligations.QuiescentStatesAreThoseAtRest := by
  intro s hturns hport
  constructor
  · rintro ⟨p, choices, h⟩
    exact ⟨hport, rests_of_step hturns h rfl⟩
  · rintro ⟨-, hidle | hclosed | ⟨hstate, hwait, hreq⟩⟩
    · exact ⟨s.readPending, s.device.readChoices, step_of_idle_or_closed hturns (.inl hidle)⟩
    · exact ⟨s.readPending, s.device.readChoices, step_of_idle_or_closed hturns (.inr hclosed)⟩
    · exact ⟨true, s.device.readChoices.tail,
        (step_of_reading hturns hstate).trans (Effect.readWaits hstate hreq hwait).exec⟩

/-- Settles O25: with no read pending nothing holds the shutdown off. -/
theorem sessionShutdownResult : Obligations.SessionShutdownResult := by
  refine fun s => ⟨rfl, fun hreq hstate hpending => ?_⟩
  exact (Effect.readShutdown hstate hreq (by simp [State.readBlocked, hpending])).exec

/-- Settles O28, verdict by verdict. -/
theorem rxScanResult : Obligations.RxScanResult := by
  intro s hstate r
  rw [(Effect.rxScan hstate).exec]
  split_ifs with hok hincomplete
  · rw [scanBuffer_of_ok hok]
  · rw [scanBuffer_of_not_ok hok, hincomplete, verdictState]
  · rw [scanBuffer_of_not_ok hok, verdictState_eq_corrupt hok hincomplete]

/-- Settles O29. -/
theorem rxDeliverResult : Obligations.RxDeliverResult := by
  intro s f hstate hframe
  rw [(Effect.rxDeliver hstate).exec, deliver_of_rxFrame_eq_some hframe]

/-- Settles O30. -/
theorem rxWaitResult : Obligations.RxWaitResult := fun _ hstate => (Effect.rxWait hstate).exec

/-- Settles O31. -/
theorem rxResyncResult : Obligations.RxResyncResult := fun _ hstate => (Effect.rxResync hstate).exec

/-- Settles O47: no step in `Idle` and `Closed`; in `Reading` the clauses of RX.READ that wait. -/
theorem engineRestsWithoutAStep : Obligations.EngineRestsWithoutAStep := by
  intro s hturns
  have hwaits (hstate : s.rxState = .reading) (hreq : s.shutdownReq = false ∨ s.readPending = true) :
      (s.device.readChoices = [] → step s = .next { s with readPending := true }) ∧
        (∀ rest, s.device.readChoices = .notYet :: rest →
          step s = .next { s with readPending := true, device := { s.device with readChoices := rest } }) := by
    obtain ⟨-, -, -, -, hread⟩ := rxReadResult s hstate
    rw [step_of_reading hturns hstate]
    exact hread hreq
  refine ⟨?_, hwaits⟩
  rintro (hidle | hclosed | ⟨hstate, hpending, hchoice⟩)
  · exact step_of_idle_or_closed hturns (.inl hidle)
  · exact step_of_idle_or_closed hturns (.inr hclosed)
  · have hrest := (hwaits hstate (.inr hpending)).1 hchoice
    rwa [← hpending] at hrest

end Sys2Proof.Proofs
end

section
/-! The obligation about RX.START: accepted in `Idle` only (R101). -/

namespace Sys2Proof.Machine

/-- RX.START has no transition outside `Idle` (R101, U2). -/
theorem exec_rxStart_of_ne_idle {s : State} (hstate : s.rxState ≠ .idle) :
    exec .rxStart s = .refused .startOutsideIdle :=
  if_neg hstate

end Sys2Proof.Machine

namespace Sys2Proof.Proofs

open Sys2Proof.Machine

/-- Settles O24: in `Idle` by the effect of RX.START, elsewhere by its refusal. -/
theorem rxStartResult : Obligations.RxStartResult :=
  fun _ => ⟨fun hidle => (Effect.rxStart hidle).exec, exec_rxStart_of_ne_idle⟩

end Sys2Proof.Proofs
end

section
/-! SUPPORT. Runs of the engine at a device read that has not returned (R126, R142). -/

namespace Sys2Proof.Machine

/-- A state whose step leads back to it is where every run from it stays. -/
theorem reaches_self {s : State} (hrest : step s = .next s) (n : Nat) : reaches n s s := by
  induction n with
  | zero => exact reaches_zero s
  | succ n ih => exact reaches_succ hrest ih

/-- The waits a device lists at a pending read are used up one per step, and nothing else changes (R36, R126). -/
theorem reaches_waits {s : State} {j : Nat} {rest : List ReadChoice} (hturns : s.turns = [])
    (hstate : s.rxState = .reading) (hpending : s.readPending = true)
    (hchoice : s.device.readChoices = List.replicate j .notYet ++ rest) :
    reaches j s { s with device := { s.device with readChoices := rest } } := by
  induction j generalizing s with
  | zero =>
    rw [List.replicate_zero, List.nil_append] at hchoice
    subst hchoice
    exact reaches_zero s
  | succ j ih =>
    rw [List.replicate_succ, List.cons_append] at hchoice
    have hstep := ((Proofs.engineRestsWithoutAStep s hturns).2 hstate (.inr hpending)).2 _ hchoice
    rw [← hpending] at hstep
    exact reaches_succ hstep (ih hturns hstate hpending rfl)

/-- A read that returns to a shutdown closes the engine, and the answer stays with the device (R90, R142). -/
theorem step_of_shutdown_of_returns {s : State} (hturns : s.turns = []) (hstate : s.rxState = .reading)
    (hreq : s.shutdownReq = true) (hreturns : s.device.returns = true) :
    step s = .next (s.close .shutdown) :=
  (step_of_reading hturns hstate).trans
    (Effect.readShutdown hstate hreq (by simp [State.readBlocked, hreturns])).exec

end Sys2Proof.Machine
end

section
/-! The obligation about a shutdown while a device read is pending (R126, R142). -/

namespace Sys2Proof.Proofs

open Sys2Proof.Machine

/-- Settles O59: with no choice left the step leads back to the state; otherwise `j` steps use up the first `j` waits of the
list, and the step at the answer behind the last wait closes the engine. -/
theorem shutdownWaitsForPendingRead : Obligations.ShutdownWaitsForPendingRead := by
  intro s hstate hpending hturns
  obtain ⟨hrest, -⟩ := engineRestsWithoutAStep s hturns
  refine ⟨fun hnone => reaches_self (hrest (.inr (.inr ⟨hstate, hpending, hnone⟩))), ?_⟩
  intro hreq k c rest hchoice hanswer
  constructor
  · intro j hj
    apply reaches_waits hturns hstate hpending
    have hwaits : List.replicate j ReadChoice.notYet = s.device.readChoices.take j := by
      rw [hchoice, List.take_append_of_le_length (by simpa using hj), List.take_replicate, min_eq_left hj]
    rw [hwaits, List.take_append_drop]
  · have hclose := step_of_shutdown_of_returns (s := { s with device := { s.device with readChoices := c :: rest } })
      hturns hstate hreq (returns_of_cons rfl hanswer)
    rw [Nat.add_comm]
    exact reaches_add (reaches_waits hturns hstate hpending hchoice) (reaches_succ hclose (reaches_zero _))

end Sys2Proof.Proofs
end

section
/-! SUPPORT. Runs of the engine left to itself once a shutdown is requested, with no device read pending (R90, R142). -/

namespace Sys2Proof.Machine

/-- A buffer in trimmed form holds no whole Frame and keeps all its bytes (R86 (b)). -/
theorem Trimmed.framesIn_eq {b : List Byte} (h : Trimmed b) : framesIn b = ([], b) := by
  rw [framesIn_of_incomplete (congrArg Decoded.status h.decodeFrame_eq), h.decodeFrame_eq, List.drop_zero]

/-- Where a shutdown ends: the latched Frame and then those of RXBUF delivered, the partial frame left (R142). -/
def State.shutDown (s : State) : State :=
  { s with
    rxState := .closed
    closeCause := .shutdown
    rxFrame := none
    rxbuf := (framesIn s.rxbuf).2
    delivered := s.delivered ++ s.rxFrame.toList ++ (framesIn s.rxbuf).1 }

/-- A delivered Frame is no longer latched: the end is the same (R92). -/
theorem State.shutDown_deliver (s : State) : { s.deliver with rxState := .scanning }.shutDown = s.shutDown := by
  simp only [State.shutDown, State.deliver, Option.toList_none, List.append_nil]

/-- With no read pending, the next RX.READ closes the engine (R90, R142). -/
theorem step_of_shutdown {s : State} (hturns : s.turns = []) (hstate : s.rxState = .reading)
    (hreq : s.shutdownReq = true) (hpending : s.readPending = false) : step s = .next (s.close .shutdown) :=
  step_of_engine_effect hturns (by rw [hstate]; rfl)
    (.readShutdown hstate hreq (by simp [State.readBlocked, hpending]))

section ShutdownRequested

variable {s : State} (hturns : s.turns = []) (hreq : s.shutdownReq = true) (hpending : s.readPending = false)

include hturns hreq hpending

/-- One step closes the engine once it is back in `Reading` with every whole Frame of RXBUF delivered (R98, R142). -/
theorem reaches_shutDown_of_scanned {n : Nat} (hframe : s.rxFrame = none)
    (hscanned : reaches n s { s with
      rxState := .reading
      rxbuf := (framesIn s.rxbuf).2
      delivered := s.delivered ++ (framesIn s.rxbuf).1 }) :
    reaches (1 + n) s s.shutDown := by
  refine reaches_add hscanned (reaches_succ (step_of_shutdown hturns rfl hreq hpending) ?_)
  rw [State.shutDown, hframe, Option.toList_none, List.append_nil, State.close, ← hpending, ← hframe]
  exact reaches_zero _

/-- In `Reading` RXBUF is in trimmed form and has been scanned already (R27 (b)). -/
theorem reaches_shutDown_of_reading (hstate : s.rxState = .reading) (hframe : s.rxFrame = none)
    (htrimmed : Trimmed s.rxbuf) : reaches 1 s s.shutDown := by
  apply reaches_shutDown_of_scanned (n := 0) hturns hreq hpending hframe
  rw [htrimmed.framesIn_eq, List.append_nil, ← hstate]
  exact reaches_zero s

/-- In `Scanning` the engine comes back to `Reading` first (R98). -/
theorem reaches_shutDown_of_scanning (hstate : s.rxState = .scanning) (hframe : s.rxFrame = none) :
    ∃ n ≤ 2 * s.rxbuf.length + 3, reaches n s s.shutDown := by
  obtain ⟨n, hn, hscanned⟩ := reaches_reading hstate hframe hturns
  exact ⟨1 + n, by omega, reaches_shutDown_of_scanned hturns hreq hpending hframe hscanned⟩

end ShutdownRequested

end Sys2Proof.Machine
end

section
/-! The obligation about a shutdown with no device read pending (R142). -/

namespace Sys2Proof.Proofs

open Sys2Proof.Machine

/-- Settles O44, state by state: from `Reading` the engine closes at once, from `Scanning` it reads again first, and the
other three states are one step before these two. -/
theorem shutdownDeliversBufferedFramesFirst : Obligations.ShutdownDeliversBufferedFramesFirst := by
  intro s hinv hidle hclosed hpending hturns hreq
  have hframe (hne : s.rxState ≠ .frameDelivered) : s.rxFrame = none :=
    Option.not_isSome_iff_eq_none.mp (mt hinv.latch.mp hne)
  change ∃ n ≤ 2 * s.rxbuf.length + 4, reaches n s s.shutDown
  cases hstate : s.rxState with
  | idle => exact absurd hstate hidle
  | closed => exact absurd hstate hclosed
  | reading =>
    exact ⟨1, by omega, reaches_shutDown_of_reading hturns hreq hpending hstate (hframe (by simp [hstate]))
      (hinv.trimmed (.inl hstate))⟩
  | scanning =>
    obtain ⟨n, hn, hrun⟩ := reaches_shutDown_of_scanning hturns hreq hpending hstate (hframe (by simp [hstate]))
    exact ⟨n, by omega, hrun⟩
  | frameDelivered =>
    have hstep := step_of_engine_effect hturns (by rw [hstate]; rfl) (.rxDeliver hstate)
    obtain ⟨n, hn, hrun⟩ := reaches_shutDown_of_scanning (s := { s.deliver with rxState := .scanning }) hturns hreq
      hpending rfl rfl
    rw [State.shutDown_deliver] at hrun
    exact ⟨n + 1, Nat.succ_le_succ hn, reaches_succ hstep hrun⟩
  | incomplete =>
    have hstep := step_of_engine_effect hturns (by rw [hstate]; rfl) (.rxWait hstate)
    have hrun := reaches_shutDown_of_reading (s := { s with rxState := .reading }) hturns hreq hpending rfl
      (hframe (by simp [hstate])) (hinv.trimmed (.inr (.inl hstate)))
    exact ⟨2, by omega, reaches_succ hstep hrun⟩
  | corrupt =>
    have hstep := step_of_engine_effect hturns (by rw [hstate]; rfl) (.rxResync hstate)
    obtain ⟨n, hn, hrun⟩ := reaches_shutDown_of_scanning (s := { s with rxState := .scanning }) hturns hreq hpending
      rfl (hframe (by simp [hstate]))
    exact ⟨n + 1, Nat.succ_le_succ hn, reaches_succ hstep hrun⟩

end Sys2Proof.Proofs
end
